-- ==== Sys2Proof/Word.lean ====
section
/-! DEFINITION. The fixed widths of the block (R8, R9, R13): every datum is one byte, a command is one 16-bit word,
`STATUS` and `BYTE_COUNT` are 32-bit words. All are unsigned, with bit 0 the least significant. -/

namespace Sys2Proof

/-- `BYTE` (R8): a table entry, a key byte, an input byte, an output byte, and a table index (R21, R44). -/
abbrev Byte := BitVec 8

/-- The command word on `cmd_word` (R9, R59). -/
abbrev CmdWord := BitVec 16

/-- The word on the `status` port (R9, R35). -/
abbrev StatusWord := BitVec 32

/-- `TABLE_SIZE` (R8): entries of each permutation table. -/
abbrev tableSize : Nat := 256

/-- `KEY_LEN` (R8): bytes of the key. -/
abbrev keyLen : Nat := 16

end Sys2Proof
end

