-- ==== Sys2Proof/Syntax.lean ====
section
/-! DEFINITION. The commands of `TA152-CMD` (R2, R59 to R62): one constructor for each row of spec/opcode_table.json. -/

namespace Sys2Proof

/-- The encrypt/decrypt selector (R30), the operand of `START` (R61). -/
inductive Mode where
  /-- 0: the lookup reads the forward table. -/
  | encrypt
  /-- 1: the lookup reads the inverse table. -/
  | decrypt
deriving DecidableEq, Repr, Inhabited

/-- A command of the command port. `DATA` operands are bytes; `ABORT`'s operand is the 4-bit `ARG` field (R61), of
which only 1 to 5 are well-formed (`wellFormed`). -/
inductive Instr where
  /-- `NOP` (R89). -/
  | nop
  /-- `CLEAR` (R90). -/
  | clear
  /-- `KEY_BYTE d` (R91). -/
  | keyByte (d : Byte)
  /-- `START m` (R92). -/
  | start (m : Mode)
  /-- `PROCESS b` (R81). -/
  | process (b : Byte)
  /-- `FINISH` (R93). -/
  | finish
  /-- `ABORT c` (R94). -/
  | abort (c : BitVec 4)
  /-- `PEEK_FWD i` (R97). -/
  | peekFwd (i : Byte)
  /-- `PEEK_INV i` (R98). -/
  | peekInv (i : Byte)
deriving DecidableEq, Repr, Inhabited

end Sys2Proof
end

