-- ==== Sys2Proof/WellFormed.lean ====
section
/-! DEFINITION. Which command terms stand for a word of the command set (R62, R63). The types rule out everything but an
`ABORT` code outside 1 to 5. -/

namespace Sys2Proof

/-- The codes a host may report with `ABORT` (R62, R94): 1 to 5. -/
def hostCodeOk (c : BitVec 4) : Bool := decide (1 ≤ c.toNat ∧ c.toNat ≤ 5)

/-- A command that some command word encodes (R62, R63). -/
def wellFormed : Instr → Bool
  | .nop => true
  | .clear => true
  | .keyByte _ => true
  | .start _ => true
  | .process _ => true
  | .finish => true
  | .abort c => hostCodeOk c
  | .peekFwd _ => true
  | .peekInv _ => true

end Sys2Proof
end

