-- ==== Sys2Proof/Decode.lean ====
section
/-! DEFINITION. The decoder of R63, total on every 16-bit word and refusing by name, and the encoder of the same
table (R59, R62, R66). -/

namespace Sys2Proof

/-- `OP`, bits [15:12] (R59). -/
def opField (w : CmdWord) : BitVec 4 := w.extractLsb' 12 4

/-- `ARG`, bits [11:8] (R59). -/
def argField (w : CmdWord) : BitVec 4 := w.extractLsb' 8 4

/-- `DATA`, bits [7:0] (R59). -/
def dataField (w : CmdWord) : Byte := w.extractLsb' 0 8

/-- Why a word is `Illegal` (R64, R65). Each is the reason of one `ILLEGAL_COMMAND`; the block records none of them
(R101), so the name serves a reader only. -/
inductive DecodeError where
  /-- `OP` is 0x9 to 0xF (R62, R65). -/
  | reservedOpcode
  /-- A bit of `ARG` that must be 0 is not (R64). -/
  | argNotZero
  /-- `DATA` must be 0 and is not (R64). -/
  | dataNotZero
  /-- The code of an `ABORT` is 0 or 6 to 15 (R65). -/
  | abortCode
deriving DecidableEq, Repr

/-- The mode that `ARG[0]` of a `START` selects (R61). -/
def modeOfBit (b : Bool) : Mode := if b then .decrypt else .encrypt

/-- A command with a `DATA` operand and an `ARG` that must be 0 (R62, R64). -/
def decodeData (w : CmdWord) (i : Byte → Instr) : Except DecodeError Instr :=
  if argField w = 0#4 then .ok (i (dataField w)) else .error .argNotZero

/-- A command whose `ARG` and `DATA` must both be 0 (R62, R64). -/
def decodePlain (w : CmdWord) (i : Instr) : Except DecodeError Instr :=
  if argField w = 0#4 then
    if dataField w = 0#8 then .ok i else .error .dataNotZero
  else .error .argNotZero

/-- `START`: `ARG[3:1]` and `DATA` must be 0, `ARG[0]` is the mode (R61, R62). -/
def decodeStart (w : CmdWord) : Except DecodeError Instr :=
  if (argField w).extractLsb' 1 3 = 0#3 then
    if dataField w = 0#8 then .ok (.start (modeOfBit ((argField w).getLsbD 0))) else .error .dataNotZero
  else .error .argNotZero

/-- `ABORT`: `ARG` is a code 1 to 5 and `DATA` must be 0 (R62). -/
def decodeAbort (w : CmdWord) : Except DecodeError Instr :=
  if hostCodeOk (argField w) then
    if dataField w = 0#8 then .ok (.abort (argField w)) else .error .dataNotZero
  else .error .abortCode

/-- The decoder of R63. An error is the rule's `Illegal`. -/
def decode (w : CmdWord) : Except DecodeError Instr :=
  match (opField w).toNat with
  | 0 => decodePlain w .nop
  | 1 => decodePlain w .clear
  | 2 => decodeData w .keyByte
  | 3 => decodeStart w
  | 4 => decodeData w .process
  | 5 => decodePlain w .finish
  | 6 => decodeAbort w
  | 7 => decodeData w .peekFwd
  | 8 => decodeData w .peekInv
  | _ => .error .reservedOpcode

/-- `OP`, `ARG` and `DATA` as one command word, bit 15 first (R59). -/
def packWord (op arg : BitVec 4) (data : Byte) : CmdWord := (op ++ arg) ++ data

/-- The bit of `ARG` that selects a mode (R61). -/
def modeArg : Mode → BitVec 4
  | .encrypt => 0#4
  | .decrypt => 1#4

/-- The word of a command (R62, R66). -/
def encode : Instr → CmdWord
  | .nop => packWord 0x0#4 0#4 0#8
  | .clear => packWord 0x1#4 0#4 0#8
  | .keyByte d => packWord 0x2#4 0#4 d
  | .start m => packWord 0x3#4 (modeArg m) 0#8
  | .process b => packWord 0x4#4 0#4 b
  | .finish => packWord 0x5#4 0#4 0#8
  | .abort c => packWord 0x6#4 c 0#8
  | .peekFwd i => packWord 0x7#4 0#4 i
  | .peekInv i => packWord 0x8#4 0#4 i

/-- A row of the opcode map (R62). -/
structure OpcodeRow where
  mnemonic : String
  pattern : CmdWord
  mask : CmdWord
deriving DecidableEq, Repr

/-- The opcode map of R62, its match and mask columns. -/
def opcodeRows : List OpcodeRow :=
  [ ⟨"NOP", 0x0000#16, 0xFFFF#16⟩,
    ⟨"CLEAR", 0x1000#16, 0xFFFF#16⟩,
    ⟨"KEY_BYTE", 0x2000#16, 0xFF00#16⟩,
    ⟨"START", 0x3000#16, 0xFEFF#16⟩,
    ⟨"PROCESS", 0x4000#16, 0xFF00#16⟩,
    ⟨"FINISH", 0x5000#16, 0xFFFF#16⟩,
    ⟨"ABORT", 0x6000#16, 0xF0FF#16⟩,
    ⟨"PEEK_FWD", 0x7000#16, 0xFF00#16⟩,
    ⟨"PEEK_INV", 0x8000#16, 0xFF00#16⟩ ]

/-- The mnemonic of a command's row (R62). -/
def mnemonic : Instr → String
  | .nop => "NOP"
  | .clear => "CLEAR"
  | .keyByte _ => "KEY_BYTE"
  | .start _ => "START"
  | .process _ => "PROCESS"
  | .finish => "FINISH"
  | .abort _ => "ABORT"
  | .peekFwd _ => "PEEK_FWD"
  | .peekInv _ => "PEEK_INV"

/-- A word matches a row (R62). `ABORT`'s further condition on `ARG` stands in `matchesRow`'s last line. -/
def matchesRow (w : CmdWord) (r : OpcodeRow) : Bool :=
  decide (w &&& r.mask = r.pattern) && (decide (r.mnemonic ≠ "ABORT") || hostCodeOk (argField w))

/-- The command word whose bits are `w`, as spec/opcode_table.json numbers them: the port is 16 parallel wires (R44),
so bit n of the number is wire n, and bits above `nbits` are 0. -/
def tableWord (nbits w : Nat) : CmdWord := BitVec.ofNat 16 (w % 2 ^ nbits)

/-- What the decoder reads from a table row's word; none where it refuses, or where the row is wider than the one
format there is (R60). -/
def decodeTableWord (nbits w : Nat) : Option Instr :=
  if nbits ≤ 16 then (decode (tableWord nbits w)).toOption else none

end Sys2Proof
end

