-- ==== Sys2Proof/Machine/Codes.lean ====
section
/-! DEFINITION. The stream states and the error codes, with the numbers software sees in `STATUS` (R29, R30, R101). -/

namespace Sys2Proof.Machine

/-- The stream state machine (R29). Codes 5 to 7 are reserved and never produced, so the type has none. -/
inductive Fsm where
  /-- 0: no complete key. -/
  | idle
  /-- 1: 16 key bytes written, no stream started. -/
  | keyLoaded
  /-- 2: a stream is open. -/
  | streaming
  /-- 3: the stream ended by `FINISH`. -/
  | completed
  /-- 4: the stream ended by an error. -/
  | failed
deriving DecidableEq, Repr, Inhabited

/-- The error kinds 1 to 9 (R101). `ERR` is an `Option` of one: none is the spec's code 0, `not in FAILED`. Codes 10 to
15 are reserved and never produced. -/
inductive Failure where
  | openFailed | readFailure | writeFailure | closeFailure | outputPathError
  | invalidKeySize | keyNotLoaded | sequenceError | illegalCommand
deriving DecidableEq, Repr, Inhabited

/-- The code of a stream state in `STATUS[2:0]` (R29). -/
def fsmCode : Fsm → BitVec 3
  | .idle => 0#3
  | .keyLoaded => 1#3
  | .streaming => 2#3
  | .completed => 3#3
  | .failed => 4#3

/-- The code of an error kind (R101). -/
def failureCode : Failure → BitVec 4
  | .openFailed => 1#4
  | .readFailure => 2#4
  | .writeFailure => 3#4
  | .closeFailure => 4#4
  | .outputPathError => 5#4
  | .invalidKeySize => 6#4
  | .keyNotLoaded => 7#4
  | .sequenceError => 8#4
  | .illegalCommand => 9#4

/-- The code in `ERR`, `STATUS[23:20]` (R31, R101): 0 for none. -/
def errCode : Option Failure → BitVec 4
  | none => 0#4
  | some e => failureCode e

/-- The error kind that a code of `ABORT` reports (R94, R101); none for a code no host may report. -/
def hostFailure (c : BitVec 4) : Option Failure :=
  match c.toNat with
  | 1 => some .openFailed
  | 2 => some .readFailure
  | 3 => some .writeFailure
  | 4 => some .closeFailure
  | 5 => some .outputPathError
  | _ => none

/-- `MODE` as the bit `STATUS[3]` (R30). -/
def modeBit : Mode → BitVec 1
  | .encrypt => 0#1
  | .decrypt => 1#1

end Sys2Proof.Machine
end

