-- ==== Sys2Proof/Config.lean ====
section
/-! DEFINITION. The open parameters of the spec (R10, R51, R117, R123) and the free values: what the ports show while
they are unspecified (R35, R116, R119) and what the registers hold at power-up (R119). Every one is opaque, so no proof
can lean on a value of it. -/

namespace Sys2Proof

/-- The latency classes of R123. -/
inductive LatencyClass where
  /-- `LAT_PROCESS`: `PROCESS`. -/
  | process
  /-- `LAT_INIT`: `START`, `FINISH`, `CLEAR`, and any command that performs failure entry. -/
  | init
  /-- `LAT_KEY`: `KEY_BYTE`. -/
  | key
  /-- `LAT_PEEK`: `PEEK_FWD`, `PEEK_INV`. -/
  | peek
  /-- `LAT_MISC`: `NOP` and discarded words. -/
  | misc
deriving DecidableEq, Repr

/-- The host-facing datum a platform may map into its own address space (R51). -/
inductive HostPort where
  | cmdWord | status | byteCount
deriving DecidableEq, Repr

/-- How much a class's latency bound exceeds 1 (R10, R123): the bound is finite and at least 1. -/
opaque Config.latencySlack : LatencyClass → Nat

/-- `LAT_PROCESS`, `LAT_INIT`, `LAT_KEY`, `LAT_PEEK`, `LAT_MISC` (R123): the bound of a class, a positive integer. -/
def Config.latencyBound (c : LatencyClass) : Nat := Config.latencySlack c + 1

/-- How much `LAT_RESET` exceeds 1 (R10, R117). -/
opaque Config.resetSlack : Nat

/-- `LAT_RESET` (R117): the cycles of reset initialisation, at least 1. -/
def Config.latReset : Nat := Config.resetSlack + 1

/-- The draw that settles one command's latency within its bound (R123: it may vary). -/
opaque Config.latencyDraw : Nat → Nat

/-- `HOST_MAP` (R51): where the platform puts each host-facing datum. No rule of the block reads it. -/
opaque Config.hostMap : HostPort → Nat

/-- The `n`-th unspecified value of the `status` port (R35, R116, R119). -/
opaque Config.freeStatus : Nat → StatusWord

/-- The `n`-th unspecified value of the `byte_count` port (R35, R116, R119). -/
opaque Config.freeByteCount : Nat → BitVec 32

/-- The `n`-th unspecified value of the `rsp_data` port (R35, R116, R119). -/
opaque Config.freeRspData : Nat → Byte

/-- The `n`-th unspecified value of the `cmd_ready` port, before the first reset completes only (R119). -/
opaque Config.freeCmdReady : Nat → Bool

/-- The `n`-th unspecified value of the `rsp_valid` port, before the first reset completes only (R119). -/
opaque Config.freeRspValid : Nat → Bool

/-- What an entry of `FWD` holds at power-up (R119). -/
opaque Config.powerUpFwd : Nat → Byte

/-- What an entry of `INV` holds at power-up (R119). -/
opaque Config.powerUpInv : Nat → Byte

/-- What a key byte holds at power-up (R119). -/
opaque Config.powerUpKey : Nat → Byte

/-- What `KEY_COUNT` holds at power-up (R119). -/
opaque Config.powerUpKeyCount : BitVec 5

/-- What `CURSOR` holds at power-up (R119). -/
opaque Config.powerUpCursor : BitVec 4

/-- What `MODE` holds at power-up (R119). -/
opaque Config.powerUpMode : Mode

/-- What `FSM` holds at power-up (R119). -/
opaque Config.powerUpFsm : Machine.Fsm

/-- What `ERR` holds at power-up (R119). -/
opaque Config.powerUpErr : Option Machine.Failure

/-- What `DOUT` holds at power-up (R119). -/
opaque Config.powerUpDout : Byte

/-- What `DOUT_VALID` holds at power-up (R119). -/
opaque Config.powerUpDoutValid : Bool

/-- What `BYTE_COUNT` holds at power-up (R119). -/
opaque Config.powerUpByteCount : BitVec 32

/-- What `BUSY` is at power-up (R119). -/
opaque Config.powerUpBusy : Bool

/-- The word that a block busy at power-up works at (R119, log entry 21). -/
opaque Config.powerUpWord : CmdWord

/-- How many rising edges beyond the first a block busy at power-up stays busy (R119, log entry 21). -/
opaque Config.powerUpLeft : Nat

/-- What the `rsp_valid` register of the model holds at power-up (R119). -/
opaque Config.powerUpRspValid : Bool

end Sys2Proof
end

