-- ==== Sys2Proof/Machine/State.lean ====
section
/-! DEFINITION. The machine's state (R20, R40) as plain data, its reset value, and the reasons a step can stop. -/

namespace Sys2Proof.Machine

/-- One permutation table: 256 entries of 8 bits (R21). -/
abbrev Table := Vector Byte tableSize

/-- The key register: 16 bytes (R25). -/
abbrev Key := Vector Byte keyLen

/-- The block's input pins as sampled at one rising edge of `clk` (R18). -/
structure Pins where
  /-- `rst`. -/
  rst : Bool
  /-- `cmd_valid`. -/
  valid : Bool
  /-- `cmd_word`. -/
  word : CmdWord
deriving DecidableEq, Repr

/-- What the host does next. The block's only inputs are a command word and `rst` (R19). `command` and `reset` are the
transactions of the spec's operational level (R16); `edge` is a single rising edge of `clk`, the level of the handshake
(R116, R122). -/
inductive HostEvent where
  /-- The host offers the word, holds it until it is accepted and waits for its completion (R16, R122). -/
  | command (w : CmdWord)
  /-- The host pulses `rst` and waits until the initialisation is over (R116, R117). -/
  | reset
  /-- One rising edge of `clk` with these pins. -/
  | edge (p : Pins)
deriving DecidableEq, Repr

/-- What keeps the block busy (R34). -/
inductive Job where
  /-- An accepted command word that has not completed (R122). -/
  | command (w : CmdWord)
  /-- Reset, and the initialisation after it (R117). -/
  | resetInit
deriving DecidableEq, Repr

/-- A busy period: its job, and the rising edges left until it completes (R117, R123). `left` is no architectural
state (R16, R39): no result depends on it. -/
structure Flight where
  job : Job
  left : Nat
deriving DecidableEq, Repr

/-- The state. The fields to `byteCount` and the one-bit `BUSY` (`flight`, read by `State.busy`) are the architectural
state of R20; `rspValid` is the `rsp_valid` output of R18, R32 and R40; `initialised`, `inbox` and `draws` are the
model's own. -/
structure State where
  /-- `FWD[0..255]` (R20, R21). -/
  fwd : Table
  /-- `INV[0..255]` (R20, R21). -/
  inv : Table
  /-- `KEY[0..15]` (R20, R25). -/
  key : Key
  /-- `KEY_COUNT` (R20, R26). -/
  keyCount : BitVec 5
  /-- `CURSOR` (R20, R28). -/
  cursor : BitVec 4
  /-- `MODE` (R20, R30). -/
  mode : Mode
  /-- `FSM` (R20, R29). -/
  fsm : Fsm
  /-- `ERR` (R20, R31): none is code 0. -/
  err : Option Failure
  /-- `DOUT` (R20, R32). -/
  dout : Byte
  /-- `DOUT_VALID` (R20, R32). -/
  doutValid : Bool
  /-- `BYTE_COUNT` (R20, R33). -/
  byteCount : BitVec 32
  /-- `BUSY` (R20, R34) and what it waits for: `BUSY` is 1 exactly while this is some flight. -/
  flight : Option Flight
  /-- `rsp_valid` (R18, R32): the pulse, as driven in the cycle after the latest edge or transaction. -/
  rspValid : Bool
  /-- The model's own: a reset has completed since power-up (R119). -/
  initialised : Bool
  /-- The model's own: what the host does from here on, first event first (R37: the host is the sequencer). -/
  inbox : List HostEvent
  /-- The model's own: how many free values have been drawn (latencies, unspecified port values). -/
  draws : Nat
deriving DecidableEq, Repr

/-- Reasons to stop with a fault. There is none: the block has no trap and every error is failure entry, which is a
next state (R100, R103). -/
inductive Fault where
deriving DecidableEq, Repr

/-- Reasons to refuse a step. -/
inductive Refusal where
  /-- Raised by an arm of `exec` without a meaning. No arm raises it. Safe: the machine stops. -/
  | notModelled (mnemonic : String)
  /-- Raised by `clockEdge` and `transact` when a command is issued before the first reset has completed, which 93_implementation_defined.md
  part 2 treats as `refuse` (R119). Safe: the machine stops. -/
  | commandBeforeReset
deriving DecidableEq, Repr

/-- The outcome of a step or of a meaning. -/
abbrev Result := Host.Outcome State Fault Refusal

/-- What `identity()` writes into each table (R15, R23): entry `i` holds `i`. -/
@[irreducible] def identityTable : Table := Vector.ofFn fun i => BitVec.ofNat 8 i.val

/-- What `zeroise()` writes into the key (R15, R27): 16 zero bytes. -/
@[irreducible] def zeroKey : Key := Vector.replicate keyLen 0#8

/-- The state after reset completes (R40). The host's `inbox` is empty: the block waits for a command (R120). -/
def State.reset : State where
  fwd := identityTable
  inv := identityTable
  key := zeroKey
  keyCount := 0#5
  cursor := 0#4
  mode := .encrypt
  fsm := .idle
  err := none
  dout := 0#8
  doutValid := false
  byteCount := 0#32
  flight := none
  rspValid := false
  initialised := true
  inbox := []
  draws := 0

end Sys2Proof.Machine
end

