-- ==== Sys2Proof/Machine/Round.lean ====
section
/-! DEFINITION. The permutation tables and the round that mutates them (R68 to R70), in the loop form of R70. -/

namespace Sys2Proof.Machine

/-- The permutation state RAM: the forward and the inverse table (R20, R21). -/
structure Tables where
  fwd : Table
  inv : Table
deriving DecidableEq, Repr

/-- `T[i]` (R14). Every byte is a valid index (R21, R43). -/
def readEntry (t : Table) (i : Byte) : Byte := t[i.toNat]'(i.isLt)

/-- `T[i] <- v` (R14). -/
def writeEntry (t : Table) (i v : Byte) : Table := t.set i.toNat v i.isLt

/-- The block size of a round (R68): key bytes 0 and 1 act as 2. -/
def blockSize (k : Byte) : Nat := if k = 0#8 ∨ k = 1#8 then 2 else k.toNat

/-- The paired swap (R69): both values are read before either table is written. -/
def swapEntries (a b : Byte) (t : Tables) : Tables :=
  let x := readEntry t.fwd a
  let y := readEntry t.fwd b
  { fwd := writeEntry (writeEntry t.fwd a y) b x
    inv := writeEntry (writeEntry t.inv x b) y a }

/-- The position `p` as a table index. Every position a round computes is 0 to 255 (R43). -/
def position (p : Nat) : Byte := BitVec.ofNat 8 p

/-- The first `m` swaps of `reverse(o, n)` (R70), in the order written. -/
def reverseSwaps (o n : Nat) : Nat → Tables → Tables
  | 0, t => t
  | m + 1, t => swapEntries (position (o + m)) (position (o + n - 1 - m)) (reverseSwaps o n m t)

/-- `reverse(o, n)` (R70): `n div 2` swaps, so the middle entry of an odd block stays (R12). -/
def reverseBlock (o n : Nat) (t : Tables) : Tables := reverseSwaps o n (n / 2) t

/-- The while loop of R70 with block size `s`, from `offset`: reverse a full block and advance. The first argument
bounds the passes. A round makes at most 128, since `s ≥ 2` (R68). Answers the offset the loop ends with. -/
def fullBlocks (s : Nat) : Nat → Nat → Tables → Nat × Tables
  | 0, offset, t => (offset, t)
  | passes + 1, offset, t =>
    if offset + s ≤ 256 then fullBlocks s passes (offset + s) (reverseBlock offset s t) else (offset, t)

/-- The leftover tail (R70, R71): `L = 256 - offset` entries, reversed as one block only if there is more than one. -/
def reverseTail (offset : Nat) (t : Tables) : Tables :=
  if 1 < 256 - offset then reverseBlock offset (256 - offset) t else t

/-- `applyRound(k)` (R70): it reads the key byte and the tables and nothing else (R72). -/
def applyRound (k : Byte) (t : Tables) : Tables :=
  let r := fullBlocks (blockSize k) 128 0 t
  reverseTail r.1 r.2

end Sys2Proof.Machine
end

