-- ==== Sys2Proof/Machine/Ops.lean ====
section
/-! DEFINITION. The named operations over the registers that the command rules share: the
result output (R32), failure entry (R103), the discard of R104, and what an `Illegal` word does (R65). There is no return from failure
but `CLEAR` and reset (R107). -/

namespace Sys2Proof.Machine

/-- The tables of a state. -/
def State.tables (s : State) : Tables := ⟨s.fwd, s.inv⟩

/-- `BUSY` (R34). -/
def State.busy (s : State) : Bool := s.flight.isSome

/-- `rsp_valid` stays 0 at this completion (R32): only a `PROCESS` or `PEEK_*` that ran pulses it. -/
def State.noPulse (s : State) : State := { s with rspValid := false }

/-- `DOUT <- r; DOUT_VALID <- 1`, and `rsp_valid` pulses at completion (R32). -/
def State.output (r : Byte) (s : State) : State := { s with dout := r, doutValid := true, rspValid := true }

/-- Failure entry (R103): `zeroise()`, `identity()`, and no output byte. `MODE` and `BYTE_COUNT` are kept. -/
def State.failEntry (e : Failure) (s : State) : State :=
  { s with
    key := zeroKey, keyCount := 0#5
    fwd := identityTable, inv := identityTable
    cursor := 0#4
    dout := 0#8, doutValid := false, rspValid := false
    err := some e
    fsm := .failed }

/-- `raise Fail(E)` (R15, R103): the command stops here. Every check precedes every write, so failure entry starts from
the state before the command. -/
def raiseFail (e : Failure) (s : State) : Result := .next (s.failEntry e)

/-- `discard` (R104): the word is accepted and changes no state. -/
def discardWord (s : State) : Result := .next s.noPulse

/-- What an `Illegal` word does (R65, R106): discarded in `FAILED`, `ILLEGAL_COMMAND` in every other state. -/
def takeIllegal (s : State) : Result :=
  match s.fsm with
  | .failed => discardWord s
  | .idle | .keyLoaded | .streaming | .completed => raiseFail .illegalCommand s

/-- The registers at their reset values (R40), the block no longer busy, and the first reset past (R119). What the host
still has to send stays. -/
def State.resetRegisters (s : State) : State := { State.reset with inbox := s.inbox, draws := s.draws }

/-- Go on from a next state; a stop stays a stop. -/
def andThen (r : Result) (f : State → Result) : Result :=
  match r with
  | .next s => f s
  | .fault e => .fault e
  | .refused e => .refused e

end Sys2Proof.Machine
end

