-- ==== Sys2Proof/Machine/Operands.lean ====
section
/-! DEFINITION. The implicit operands of the commands (R61): the key byte at the cursor (R79), the key slot at `KEY_COUNT`
(R45), and the table that `MODE` selects (R82). The explicit operands are the `ARG` and `DATA` fields, which the decoder
assembles without extension or scaling. -/

namespace Sys2Proof.Machine

/-- `KEY[i]` (R14), `i` in 0 to 15. -/
def readKey (k : Key) (i : BitVec 4) : Byte := k[i.toNat]'(i.isLt)

/-- The key byte of the round: `KEY[CURSOR]`, read before `CURSOR` advances (R79). -/
def State.currentKeyByte (s : State) : Byte := readKey s.key s.cursor

/-- `KEY[KEY_COUNT] <- d; KEY_COUNT <- KEY_COUNT + 1; if KEY_COUNT = 16: FSM <- KEY_LOADED` (R91). `KEY_COUNT` is 0 to
15 here (R26, R43); in a state with a larger count, which no run reaches, no key byte is written. -/
def State.appendKeyByte (d : Byte) (s : State) : State :=
  { s with
    key := s.key.setIfInBounds s.keyCount.toNat d
    keyCount := s.keyCount + 1#5
    fsm := if s.keyCount + 1#5 = 16#5 then .keyLoaded else s.fsm
    rspValid := false }

/-- The substitution of a byte (R81, R82): the forward table in an encrypt stream, the inverse table in a decrypt one. -/
def lookup (m : Mode) (t : Tables) (b : Byte) : Byte :=
  match m with
  | .encrypt => readEntry t.fwd b
  | .decrypt => readEntry t.inv b

end Sys2Proof.Machine
end

