-- ==== Sys2Proof/Machine/Lookup.lean ====
section
/-! DEFINITION. The meanings of `PEEK_FWD` and `PEEK_INV` (43_state_lookup.md), legal in every state (R97, R98). -/

namespace Sys2Proof.Machine

/-- `PEEK_FWD i` (R97). -/
def execPeekFwd (i : Byte) (s : State) : Result := .next (s.output (readEntry s.fwd i))

/-- `PEEK_INV i` (R98). -/
def execPeekInv (i : Byte) (s : State) : Result := .next (s.output (readEntry s.inv i))

end Sys2Proof.Machine
end

