-- ==== Sys2Proof/Machine/StreamControl.lean ====
section
/-! DEFINITION. The meanings of `NOP`, `CLEAR`, `KEY_BYTE`, `START`, `FINISH` and `ABORT` (42_stream_control.md). -/

namespace Sys2Proof.Machine

/-- `NOP` (R89): nothing, in every state. -/
def execNop (s : State) : Result := .next s.noPulse

/-- `CLEAR` (R90): legal in every state; every architectural register but `BUSY` takes its reset value. -/
def execClear (s : State) : Result :=
  .next
    { s with
      key := zeroKey, keyCount := 0#5
      fwd := identityTable, inv := identityTable
      cursor := 0#4, mode := .encrypt
      dout := 0#8, doutValid := false, rspValid := false
      byteCount := 0#32
      err := none
      fsm := .idle }

/-- `KEY_BYTE d` (R91). -/
def execKeyByte (d : Byte) (s : State) : Result :=
  match s.fsm with
  | .failed => discardWord s
  | .keyLoaded => raiseFail .invalidKeySize s
  | .streaming => raiseFail .sequenceError s
  | .completed => raiseFail .sequenceError s
  | .idle => .next (s.appendKeyByte d)

/-- `START m` (R92). -/
def execStart (m : Mode) (s : State) : Result :=
  match s.fsm with
  | .failed => discardWord s
  | .idle => raiseFail .invalidKeySize s
  | .streaming => raiseFail .sequenceError s
  | .completed => raiseFail .sequenceError s
  | .keyLoaded =>
    .next
      { s with
        fwd := identityTable, inv := identityTable
        cursor := 0#4, mode := m
        byteCount := 0#32
        dout := 0#8, doutValid := false, rspValid := false
        fsm := .streaming }

/-- `FINISH` (R93). `MODE`, `BYTE_COUNT`, `DOUT`, `DOUT_VALID` and `ERR` are kept. -/
def execFinish (s : State) : Result :=
  match s.fsm with
  | .failed => discardWord s
  | .idle => raiseFail .sequenceError s
  | .keyLoaded => raiseFail .sequenceError s
  | .completed => raiseFail .sequenceError s
  | .streaming =>
    .next
      { s with
        key := zeroKey, keyCount := 0#5
        fwd := identityTable, inv := identityTable
        cursor := 0#4
        rspValid := false
        fsm := .completed }

/-- `ABORT c` (R94): fails with the host's code from every state but `FAILED`. A code that no host may report is an
`Illegal` word (R65). -/
def execAbort (c : BitVec 4) (s : State) : Result :=
  match s.fsm with
  | .failed => discardWord s
  | .idle | .keyLoaded | .streaming | .completed =>
    match hostFailure c with
    | some e => raiseFail e s
    | none => takeIllegal s

end Sys2Proof.Machine
end

