-- ==== Sys2Proof/Machine/Substitution.lean ====
section
/-! DEFINITION. The meaning of `PROCESS` (41_byte_substitution.md). -/

namespace Sys2Proof.Machine

/-- `PROCESS b` in `STREAMING` (R81): the round (it never reads `b` or `MODE`, R72), the lookup in the tables after it,
then the advance of cursor and count, which wrap without error (R28, R33). -/
def State.substitute (b : Byte) (s : State) : State :=
  let t := applyRound s.currentKeyByte s.tables
  { s with
    fwd := t.fwd, inv := t.inv
    dout := lookup s.mode t b, doutValid := true, rspValid := true
    cursor := s.cursor + 1#4
    byteCount := s.byteCount + 1#32 }

/-- `PROCESS b` (R81). -/
def execProcess (b : Byte) (s : State) : Result :=
  match s.fsm with
  | .failed => discardWord s
  | .idle => raiseFail .keyNotLoaded s
  | .keyLoaded => raiseFail .sequenceError s
  | .completed => raiseFail .sequenceError s
  | .streaming => .next (s.substitute b)

end Sys2Proof.Machine
end

