-- ==== Sys2Proof/Machine/Dispatch.lean ====
section
/-! DEFINITION. The meaning of each command: one arm per constructor of `Instr`. -/

namespace Sys2Proof.Machine

def exec (i : Instr) (s : State) : Host.Outcome State Fault Refusal :=
  match i with
  | .nop => Sys2Proof.Machine.execNop s
  | .clear => Sys2Proof.Machine.execClear s
  | .keyByte d => Sys2Proof.Machine.execKeyByte d s
  | .start m => Sys2Proof.Machine.execStart m s
  | .process b => Sys2Proof.Machine.execProcess b s
  | .finish => Sys2Proof.Machine.execFinish s
  | .abort c => Sys2Proof.Machine.execAbort c s
  | .peekFwd x => Sys2Proof.Machine.execPeekFwd x s
  | .peekInv x => Sys2Proof.Machine.execPeekInv x s

end Sys2Proof.Machine
end

