-- ==== Sys2Proof/Machine/Handshake.lean ====
section
/-! DEFINITION. How a command word reaches its meaning: the handshake (R122), latency (R123), reset (R116 to R119) and
the transactions of the spec's operational level (R16). -/

namespace Sys2Proof.Machine

/-- What a state does with a well-formed command (R102). -/
inductive Disposition where
  /-- The command's own rule runs. -/
  | runs
  /-- The command fails with this error. -/
  | fails (e : Failure)
  /-- The word is discarded. -/
  | discarded
deriving DecidableEq, Repr

/-- The table of R102. It settles the latency class only: each meaning makes the checks of its own rule. -/
def disposition (i : Instr) (f : Fsm) : Disposition :=
  match i, f with
  | .nop, _ => .runs
  | .clear, _ => .runs
  | .peekFwd _, _ => .runs
  | .peekInv _, _ => .runs
  | .keyByte _, .idle => .runs
  | .keyByte _, .keyLoaded => .fails .invalidKeySize
  | .keyByte _, .streaming => .fails .sequenceError
  | .keyByte _, .completed => .fails .sequenceError
  | .keyByte _, .failed => .discarded
  | .start _, .idle => .fails .invalidKeySize
  | .start _, .keyLoaded => .runs
  | .start _, .streaming => .fails .sequenceError
  | .start _, .completed => .fails .sequenceError
  | .start _, .failed => .discarded
  | .process _, .idle => .fails .keyNotLoaded
  | .process _, .keyLoaded => .fails .sequenceError
  | .process _, .streaming => .runs
  | .process _, .completed => .fails .sequenceError
  | .process _, .failed => .discarded
  | .finish, .idle => .fails .sequenceError
  | .finish, .keyLoaded => .fails .sequenceError
  | .finish, .streaming => .runs
  | .finish, .completed => .fails .sequenceError
  | .finish, .failed => .discarded
  | .abort _, .failed => .discarded
  | .abort c, _ => .fails ((hostFailure c).getD .illegalCommand)

/-- The latency class of a command that runs by its own rule (R123). -/
def ownLatencyClass : Instr → LatencyClass
  | .nop => .misc
  | .clear => .init
  | .keyByte _ => .key
  | .start _ => .init
  | .process _ => .process
  | .finish => .init
  | .abort _ => .init
  | .peekFwd _ => .peek
  | .peekInv _ => .peek

/-- The latency class of a word accepted in stream state `f` (R123): a failing command has that of failure entry, a
discarded word (R104) that of `NOP`. -/
def latencyClassOf (w : CmdWord) (f : Fsm) : LatencyClass :=
  match decode w with
  | .error _ => if f = .failed then .misc else .init
  | .ok i =>
    match disposition i f with
    | .runs => ownLatencyClass i
    | .fails _ => .init
    | .discarded => .misc

/-- The `n`-th latency drawn, for a command of class `c`: at least 1, at most the class's bound (R123). -/
def latencyOf (c : LatencyClass) (n : Nat) : Nat := 1 + Config.latencyDraw n % Config.latencyBound c

/-- A word takes its effect (R63, R65, R106): `FAILED` is looked at inside each meaning, and a word that decodes to no
command is `Illegal`. -/
def runWord (w : CmdWord) (s : State) : Result :=
  match decode w with
  | .ok i => exec i s
  | .error _ => takeIllegal s

/-- A busy period ends (R17, R117, R122): the results of its job are written as one update and `BUSY` falls to 0. Nothing
has written the registers since the acceptance, so the job reads the state of its acceptance. -/
def completeFlight (f : Flight) (s : State) : Result :=
  match f.job with
  | .command w => runWord w { s with flight := none }
  | .resetInit => .next s.resetRegisters

/-- A word is accepted (R122): `BUSY` is 1 from the next cycle on, for a latency of its class, and the pulse of the
command before is over (R32). -/
def acceptWord (w : CmdWord) (s : State) : State :=
  { s with
    flight := some ⟨.command w, latencyOf (latencyClassOf w s.fsm) s.draws⟩
    rspValid := false
    draws := s.draws + 1 }

/-- A rising edge with `rst = 1` (R116, R118): no word is accepted, a busy command is abandoned, and `LAT_RESET` cycles of
initialisation follow once `rst` is 0 (R117). The registers are written at the end of the initialisation. Until then
every port is unspecified or 0, so no one sees them. -/
def resetEdge (s : State) : State :=
  { s with flight := some ⟨.resetInit, Config.latReset⟩, rspValid := false, draws := s.draws + 1 }

/-- A rising edge with `rst = 0` while busy (R122, R124): whatever the host offers is not accepted. -/
def busyEdge (f : Flight) (s : State) : Result :=
  if f.left ≤ 1 then completeFlight f { s with draws := s.draws + 1 }
  else .next { s with flight := some ⟨f.job, f.left - 1⟩, rspValid := false, draws := s.draws + 1 }

/-- A rising edge with `rst = 0` while not busy (R120, R122): an offered word is accepted, and without one nothing
happens but the end of the pulse (R32). Before the first reset the ports may then show other values (R119). -/
def readyEdge (p : Pins) (s : State) : State :=
  if p.valid then acceptWord p.word s
  else if s.initialised then s.noPulse
  else { s with rspValid := false, draws := s.draws + 1 }

/-- One rising edge of `clk` (R106: `rst` comes first). Before the first reset completes a command must not be issued
(R119). -/
def clockEdge (p : Pins) (s : State) : Result :=
  if p.rst then .next (resetEdge s)
  else if p.valid && !s.initialised then .refused .commandBeforeReset
  else
    match s.flight with
    | some f => busyEdge f s
    | none => .next (readyEdge p s)

/-- Run to the end of the busy period, if there is one (R122: `cmd_ready` is 1 only then; R123: every busy period ends). -/
def settle (s : State) : Result :=
  match s.flight with
  | some f => completeFlight f { s with draws := s.draws + 1 }
  | none => .next s

/-- The transaction of one command word (R16, R17, R52): the host holds the word until the block is ready, and the
command runs from its acceptance to its completion as one atomic step. Before the first reset completes a command must not
be issued (R119, log entry 5): as at an edge, the initialisation after `rst` is part of that time. -/
def transact (w : CmdWord) (s : State) : Result :=
  if s.initialised then andThen (settle s) (runWord w) else .refused .commandBeforeReset

/-- The transaction of a reset (R116 to R118): whatever was busy is abandoned, and the state is that of R40. -/
def resetBlock (s : State) : Result := .next ({ s with draws := s.draws + 1 } : State).resetRegisters

/-- What one host event does. -/
def takeEvent (e : HostEvent) (s : State) : Result :=
  match e with
  | .command w => transact w s
  | .reset => resetBlock s
  | .edge p => clockEdge p s

/-- An edge with `rst = 0` at which the host offers nothing. -/
def Pins.quiet : Pins := ⟨false, false, 0#16⟩

/-- Take the host's next event off the list. A host with nothing left to do lets the clock run (R120). -/
def takeNextEvent (s : State) : Result :=
  match s.inbox with
  | [] => clockEdge Pins.quiet s
  | e :: rest => takeEvent e { s with inbox := rest }

/-- The host has this event before all else. -/
def State.offering (e : HostEvent) (s : State) : State := { s with inbox := e :: s.inbox }

/-- The state at power-up (R40, R119): every register of R20, `BUSY` among them, and `rsp_valid` hold an unspecified
value, and no reset has completed. DESIGN CHOICE (log entry 21): a block that is busy then works at an unspecified word for
an unspecified number of edges, and `draws` starts from 0. -/
def State.powerUp (inbox : List HostEvent) : State where
  fwd := Vector.ofFn fun i => Config.powerUpFwd i.val
  inv := Vector.ofFn fun i => Config.powerUpInv i.val
  key := Vector.ofFn fun i => Config.powerUpKey i.val
  keyCount := Config.powerUpKeyCount
  cursor := Config.powerUpCursor
  mode := Config.powerUpMode
  fsm := Config.powerUpFsm
  err := Config.powerUpErr
  dout := Config.powerUpDout
  doutValid := Config.powerUpDoutValid
  byteCount := Config.powerUpByteCount
  flight := if Config.powerUpBusy then some ⟨.command Config.powerUpWord, Config.powerUpLeft + 1⟩ else none
  rspValid := Config.powerUpRspValid
  initialised := false
  inbox := inbox
  draws := 0

end Sys2Proof.Machine
end

