-- ==== Sys2Proof/Machine/Step.lean ====
section
/-! DEFINITION. The step: the host's next event. The block has no program counter and fetches nothing (R37): the word a
step runs is the one the host offers. -/

namespace Sys2Proof.Machine

/-- One step: one host event, or a clock edge without a command where the host has none left. -/
def step (s : State) : Host.Outcome State Fault Refusal := takeNextEvent s

/-- The host offers the word of a table row next. -/
def State.withFetchWord (s : State) (nbits w : Nat) : State := s.offering (.command (tableWord nbits w))

end Sys2Proof.Machine
end

