-- ==== Sys2Proof/Machine/Assembler.lean ====
section
/-! DEFINITION. The assembler syntax (R66) and the pseudo-instructions (R67). It stands outside the block: a program is
the list of words the host sends. -/

namespace Sys2Proof.Machine

/-- One line of R66 or R67. -/
inductive AsmLine where
  /-- A command. -/
  | command (i : Instr)
  /-- `.word <w>`: the word as written. -/
  | word (w : CmdWord)
  /-- `LOADKEY k0 ... k15`. -/
  | loadKey (k : Vector Byte keyLen)
  /-- `ENCRYPT b0 ...`. -/
  | encryptBytes (bs : List Byte)
  /-- `DECRYPT b0 ...`. -/
  | decryptBytes (bs : List Byte)
deriving DecidableEq, Repr

/-- The words of a line, in order (R66, R67). `ENCRYPT` and `DECRYPT` expand alike. -/
def expandLine : AsmLine → List CmdWord
  | .command i => [encode i]
  | .word w => [w]
  | .loadKey k => k.toList.map fun d => encode (.keyByte d)
  | .encryptBytes bs => bs.map fun b => encode (.process b)
  | .decryptBytes bs => bs.map fun b => encode (.process b)

/-- The value of a decimal digit. -/
def decDigit (c : Char) : Option Nat := if '0' ≤ c ∧ c ≤ '9' then some (c.toNat - '0'.toNat) else none

/-- The value of a hexadecimal digit, in either case. -/
def hexDigit (c : Char) : Option Nat :=
  if 'A' ≤ c ∧ c ≤ 'F' then some (c.toNat - 'A'.toNat + 10)
  else if 'a' ≤ c ∧ c ≤ 'f' then some (c.toNat - 'a'.toNat + 10)
  else decDigit c

/-- The digits of a number read in a base, on top of what stands before them. -/
def digitsIn (base : Nat) (digit : Char → Option Nat) : Nat → List Char → Option Nat
  | n, [] => some n
  | n, c :: cs =>
    match digit c with
    | some d => digitsIn base digit (n * base + d) cs
    | none => none

/-- A number (R12, R66): hexadecimal after `0x`, else decimal. -/
def numberOf : List Char → Option Nat
  | [] => none
  | ['0', 'x'] => none
  | '0' :: 'x' :: cs => digitsIn 16 hexDigit 0 cs
  | cs => digitsIn 10 decDigit 0 cs

/-- A byte operand (R66): 0 to 255. -/
def byteOf (t : List Char) : Option Byte :=
  match numberOf t with
  | some n => if n < 256 then some (BitVec.ofNat 8 n) else none
  | none => none

/-- A word operand of `.word` (R66): 16 bits. -/
def wordOf (t : List Char) : Option CmdWord :=
  match numberOf t with
  | some n => if n < 65536 then some (BitVec.ofNat 16 n) else none
  | none => none

/-- The operand of `ABORT` (R66): a name of R66's list, or its code 1 to 5. -/
def abortCodeOf (t : List Char) : Option (BitVec 4) :=
  if t = "OpenFailed".toList then some 1#4
  else if t = "ReadFailure".toList then some 2#4
  else if t = "WriteFailure".toList then some 3#4
  else if t = "CloseFailure".toList then some 4#4
  else if t = "OutputPathError".toList then some 5#4
  else
    match numberOf t with
    | some n => if 1 ≤ n ∧ n ≤ 5 then some (BitVec.ofNat 4 n) else none
    | none => none

/-- The operand of `START` (R66). -/
def modeOf (t : List Char) : Option Mode :=
  if t = "ENC".toList then some .encrypt else if t = "DEC".toList then some .decrypt else none

/-- Every operand of a list, or none. -/
def bytesOf : List (List Char) → Option (List Byte)
  | [] => some []
  | t :: ts =>
    match byteOf t, bytesOf ts with
    | some b, some bs => some (b :: bs)
    | _, _ => none

/-- Exactly 16 bytes (R67). -/
def keyOf (bs : List Byte) : Option (Vector Byte keyLen) :=
  if h : bs.length = keyLen then some ⟨bs.toArray, by simpa using h⟩ else none

/-- A comment starts at `;` (R66). -/
def dropComment (cs : List Char) : List Char := cs.takeWhile fun c => c ≠ ';'

/-- Blanks part the mnemonic and the operands. -/
def isBlank (c : Char) : Bool := c = ' ' ∨ c = '\t'

/-- The blank-separated pieces of a line; the first list is the piece being read. -/
def pieces : List Char → List Char → List (List Char)
  | cur, [] => if cur.isEmpty then [] else [cur]
  | cur, c :: cs =>
    if isBlank c then (if cur.isEmpty then pieces [] cs else cur :: pieces [] cs) else pieces (cur ++ [c]) cs

/-- The line that a mnemonic and its operands stand for (R66, R67). -/
def lineOf (name : List Char) (args : List (List Char)) : Option AsmLine :=
  if name = "LOADKEY".toList then (bytesOf args).bind keyOf |>.map .loadKey
  else if name = "ENCRYPT".toList then (bytesOf args).map .encryptBytes
  else if name = "DECRYPT".toList then (bytesOf args).map .decryptBytes
  else
    match args with
    | [] =>
      if name = "NOP".toList then some (.command .nop)
      else if name = "CLEAR".toList then some (.command .clear)
      else if name = "FINISH".toList then some (.command .finish)
      else none
    | [t] =>
      if name = "KEY_BYTE".toList then (byteOf t).map fun d => .command (.keyByte d)
      else if name = "START".toList then (modeOf t).map fun m => .command (.start m)
      else if name = "PROCESS".toList then (byteOf t).map fun b => .command (.process b)
      else if name = "ABORT".toList then (abortCodeOf t).map fun c => .command (.abort c)
      else if name = "PEEK_FWD".toList then (byteOf t).map fun i => .command (.peekFwd i)
      else if name = "PEEK_INV".toList then (byteOf t).map fun i => .command (.peekInv i)
      else if name = ".word".toList then (wordOf t).map .word
      else none
    | _ :: _ :: _ => none

/-- The words of one line of text; none where it is no line of the syntax. A line with nothing on it but blanks or a
comment sends no word. -/
def assembleLine (line : String) : Option (List CmdWord) :=
  match pieces [] (dropComment line.toList) with
  | [] => some []
  | name :: args => (lineOf name args).map expandLine

end Sys2Proof.Machine
end

