-- ==== Sys2Proof/Machine/Flags.lean ====
section
/-! DEFINITION. The `STATUS` word (R35). The block has no arithmetic condition codes: its flags are `BUSY`, `DOUT_VALID`
and the `FSM` and `ERR` codes (R38). -/

namespace Sys2Proof.Machine

/-- `STATUS` while `BUSY` is 0 (R35): every field equals its register and reserved bits read 0. Bit 31 first. -/
def State.statusWord (s : State) : StatusWord :=
  s.dout ++ errCode s.err ++ s.cursor ++ 0#3 ++ s.keyCount ++ 0#2 ++ BitVec.ofBool s.doutValid ++
    BitVec.ofBool s.busy ++ modeBit s.mode ++ fsmCode s.fsm

/-- Bit 4 of `STATUS`, `BUSY` (R35). -/
def busyMask : StatusWord := 0x10#32

end Sys2Proof.Machine
end

