-- ==== Sys2Proof/Machine/Ports.lean ====
section
/-! DEFINITION. The output ports (R18) in a cycle, as a function of the state and of the `rst` pin in that cycle. -/

namespace Sys2Proof.Machine

/-- The output ports (R18). `clk`, `rst`, `cmd_valid` and `cmd_word` are inputs, and there is no key output. -/
structure Outputs where
  /-- `cmd_ready`. -/
  cmdReady : Bool
  /-- `rsp_valid`. -/
  rspValid : Bool
  /-- `rsp_data`. -/
  rspData : Byte
  /-- `status`. -/
  status : StatusWord
  /-- `byte_count`. -/
  byteCount : BitVec 32
deriving DecidableEq, Repr

/-- The ports before the first reset completes (R119): every one unspecified. -/
def unspecifiedOutputs (n : Nat) : Outputs :=
  ⟨Config.freeCmdReady n, Config.freeRspValid n, Config.freeRspData n, Config.freeStatus n, Config.freeByteCount n⟩

/-- The ports in a cycle with `rst = 1` (R116): `cmd_ready` and `rsp_valid` are 0, the rest unspecified. -/
def resetOutputs (n : Nat) : Outputs :=
  ⟨false, false, Config.freeRspData n, Config.freeStatus n, Config.freeByteCount n⟩

/-- The ports while `BUSY` is 1 (R35, R124): `STATUS` says only that the block is busy. -/
def busyOutputs (n : Nat) : Outputs :=
  ⟨false, false, Config.freeRspData n, Config.freeStatus n ||| busyMask, Config.freeByteCount n⟩

/-- The ports while the block is ready (R18, R32, R34, R35). -/
def readyOutputs (s : State) : Outputs := ⟨true, s.rspValid, s.dout, s.statusWord, s.byteCount⟩

/-- The output ports of a state, with the given `rst` pin. -/
def State.outputs (s : State) (rst : Bool) : Outputs :=
  if !s.initialised then unspecifiedOutputs s.draws
  else if rst then resetOutputs s.draws
  else if s.busy then busyOutputs s.draws
  else readyOutputs s

end Sys2Proof.Machine
end

