-- ==== Sys2Proof/Safety.lean ====
section
/-! DEFINITION. The terms in which statements about the machine are made: what a command leaves unchanged, what failure
entry leaves, the invariant of R22, R26 and R41, the closed form of the round (R73), and runs of commands and of edges. -/

namespace Sys2Proof.Safety

open Sys2Proof.Machine

/-! ## Tables and key -/

/-- `INV[FWD[x]] = x` and `FWD[INV[x]] = x` for every `x` (R22). -/
def MutualInverse (t : Tables) : Prop :=
  ∀ x : Byte, readEntry t.inv (readEntry t.fwd x) = x ∧ readEntry t.fwd (readEntry t.inv x) = x

/-- Both tables hold the identity mapping (R23). -/
def TablesIdentity (s : State) : Prop := ∀ x : Byte, readEntry s.fwd x = x ∧ readEntry s.inv x = x

/-- Every key byte is 0 (R27). -/
def KeyZero (s : State) : Prop := ∀ i : BitVec 4, readKey s.key i = 0#8

/-- The identity tables as a pair. -/
def identityTables : Tables := ⟨identityTable, identityTable⟩

/-- `rho_k` of R73 on positions as numbers, with `s = blockSize(k)` and `T = (256 div s) × s`. -/
def rhoNat (s p : Nat) : Nat :=
  if p < 256 / s * s then 2 * (p / s * s) + s - 1 - p else 256 / s * s + 255 - p

/-- `rho_k` (R73): the permutation of positions that a round with key byte `k` makes. -/
def rho (k p : Byte) : Byte := position (rhoNat (blockSize k) p.toNat)

/-- The swaps that reverse the block of `n` entries from `o`, in the order of R70. -/
def blockSwaps (o n : Nat) : List (Byte × Byte) :=
  (List.range (n / 2)).map fun i => (position (o + i), position (o + n - 1 - i))

/-- The swaps of a round, in the order of R70: the `256 div s` full blocks, then the tail (R71). -/
def roundSwaps (k : Byte) : List (Byte × Byte) :=
  ((List.range (256 / blockSize k)).flatMap fun j => blockSwaps (j * blockSize k) (blockSize k)) ++
    blockSwaps (256 / blockSize k * blockSize k) (256 - 256 / blockSize k * blockSize k)

/-- Swaps made one after the other. -/
def applySwaps (l : List (Byte × Byte)) (t : Tables) : Tables := l.foldl (fun u p => swapEntries p.1 p.2 u) t

/-- The tables after rounds with these key bytes, in this order (R75). -/
def applyRounds (ks : List Byte) (t : Tables) : Tables := ks.foldl (fun u k => applyRound k u) t

/-! ## What changes and what does not -/

/-- `BUSY` and the model's own fields are unchanged: no command's meaning touches them. -/
structure SideKept (s t : State) : Prop where
  flight : t.flight = s.flight
  initialised : t.initialised = s.initialised
  inbox : t.inbox = s.inbox
  draws : t.draws = s.draws

/-- Every register of R20 but `BUSY` is unchanged. -/
structure RegistersKept (s t : State) : Prop where
  fwd : t.fwd = s.fwd
  inv : t.inv = s.inv
  key : t.key = s.key
  keyCount : t.keyCount = s.keyCount
  cursor : t.cursor = s.cursor
  mode : t.mode = s.mode
  fsm : t.fsm = s.fsm
  err : t.err = s.err
  dout : t.dout = s.dout
  doutValid : t.doutValid = s.doutValid
  byteCount : t.byteCount = s.byteCount

/-- The command had no effect on any state and gave no pulse (R89, R104). -/
structure NoEffect (s t : State) : Prop where
  registers : RegistersKept s t
  side : SideKept s t
  pulse : t.rspValid = false

/-- What failure entry with code `e` leaves (R103). -/
structure FailedWith (e : Failure) (s t : State) : Prop where
  key : KeyZero t
  keyCount : t.keyCount = 0#5
  tables : TablesIdentity t
  cursor : t.cursor = 0#4
  dout : t.dout = 0#8
  doutValid : t.doutValid = false
  pulse : t.rspValid = false
  err : t.err = some e
  fsm : t.fsm = .failed
  mode : t.mode = s.mode
  byteCount : t.byteCount = s.byteCount
  side : SideKept s t

/-- The values of R40, `BUSY` and `rsp_valid` among them. -/
structure RegistersReset (t : State) : Prop where
  tables : TablesIdentity t
  key : KeyZero t
  keyCount : t.keyCount = 0#5
  cursor : t.cursor = 0#4
  mode : t.mode = .encrypt
  fsm : t.fsm = .idle
  err : t.err = none
  dout : t.dout = 0#8
  doutValid : t.doutValid = false
  byteCount : t.byteCount = 0#32
  busy : t.busy = false
  pulse : t.rspValid = false

/-- The word raises `ILLEGAL_COMMAND` in every state but `FAILED`, where it is discarded (R65, R104). -/
def RaisesIllegal (w : CmdWord) : Prop :=
  ∀ s : State,
    (s.fsm ≠ .failed → ∃ t, runWord w s = .next t ∧ FailedWith .illegalCommand s t) ∧
      (s.fsm = .failed → ∃ t, runWord w s = .next t ∧ NoEffect s t)

/-! ## The invariant -/

/-- What holds of the registers at every command boundary after reset (R22, R26, R41). -/
structure RegistersInv (s : State) : Prop where
  /-- R41.1, R22. -/
  inverse : MutualInverse s.tables
  /-- R41.2. -/
  failedIff : s.fsm = .failed ↔ s.err ≠ none
  /-- R41.3. -/
  noOutput : s.doutValid = false → s.dout = 0#8
  /-- R41.4. -/
  erased : s.fsm = .completed ∨ s.fsm = .failed → KeyZero s ∧ s.keyCount = 0#5
  /-- R41.5. -/
  atRest : s.fsm ≠ .streaming → TablesIdentity s ∧ s.cursor = 0#4
  /-- R41.6. -/
  inStep : s.fsm = .streaming → s.cursor.toNat = s.byteCount.toNat % 16
  /-- R41.7, its part that needs no history. -/
  fresh : s.fsm = .idle ∨ s.fsm = .keyLoaded → s.mode = .encrypt ∧ s.byteCount = 0#32
  /-- R26. -/
  countIdle : s.fsm = .idle → s.keyCount.toNat < 16
  /-- R26. -/
  countFull : s.fsm = .keyLoaded ∨ s.fsm = .streaming → s.keyCount.toNat = 16
  /-- R32: a pulse announces a result that `DOUT` holds. -/
  pulseValid : s.rspValid = true → s.doutValid = true

/-- What holds of every state that a run from power-up or from reset reaches. -/
structure StateInv (s : State) : Prop where
  /-- After the first reset the registers keep their invariant, busy or not (R39, R119). -/
  registers : s.initialised = true → RegistersInv s
  /-- A busy period has an edge to go (R123: a latency is at least 1). -/
  left : ∀ f, s.flight = some f → 1 ≤ f.left
  /-- No pulse while busy with a command or with reset (R32, R116): only what power-up left may show one (R119). -/
  quiet : ∀ f, s.flight = some f → s.initialised = true ∨ f.job = .resetInit → s.rspValid = false
  /-- Before the first reset completes no command is accepted (R119): what is under way is a reset, or what power-up left. -/
  beforeReset : s.initialised = false → ∀ f, s.flight = some f → f.job = .resetInit ∨ f.job = .command Config.powerUpWord

/-! ## Runs -/

/-- Commands one after the other, with the bytes that the `rsp_valid` pulses announce, in order (R46, R52). -/
def runCommands : List Instr → State → Option (List Byte × State)
  | [], s => some ([], s)
  | i :: is, s =>
    match exec i s with
    | .next t =>
      match runCommands is t with
      | some (out, u) => some (if t.rspValid then t.dout :: out else out, u)
      | none => none
    | .fault _ => none
    | .refused _ => none

/-- The commands of a whole stream from `IDLE` (R121 steps 3 to 6): the key, `START`, the message, `FINISH`. -/
def session (m : Mode) (k : Key) (msg : List Byte) : List Instr :=
  k.toList.map .keyByte ++ .start m :: (msg.map .process ++ [.finish])

/-- The key bytes of the next `n` rounds (R79): one per round from the cursor on, modulo 16. -/
def keyStream (s : State) (n : Nat) : List Byte :=
  (List.range n).map fun j => readKey s.key (BitVec.ofNat 4 (s.cursor.toNat + j))

/-- Rising edges one after the other. -/
def runEdges : List Pins → State → Result
  | [], s => .next s
  | p :: ps, s => andThen (clockEdge p s) (runEdges ps)

end Sys2Proof.Safety
end

