-- ==== Sys2Proof/Certificates/Slice0/Obligations.lean ====
section
/-! DEFINITION. The statements for the provers. Each docstring names the rule of spec/ it formalises. -/

open Sys2Proof Sys2Proof.Machine Sys2Proof.Safety

/-! ## Reset and power-up -/

/-- R40: the state after reset, and the state after any reset transaction, whatever was busy before.
The reset event as one step is the model's form (log entry 1). -/
def Obligations.ResetStateMatchesTheResetTable : Prop :=
  RegistersReset State.reset ∧
    ∀ s : State, ∃ t, step (s.offering .reset) = .next t ∧ RegistersReset t ∧ t.initialised = true ∧ t.inbox = s.inbox

/-- R116, R117, R118: an edge with `rst = 1` accepts no command and abandons whatever is busy. `LAT_RESET` further edges
with `rst = 0` complete the initialisation, whatever the host offers; until then the block is busy without a pulse.
That the count is exact is the model's choice (log entry 7). -/
def Obligations.ResetEdgesAbandonAndInitialise : Prop :=
  ∀ (s : State) (p : Pins) (ps : List Pins),
    p.rst = true → (∀ q ∈ ps, q.rst = false) → (s.initialised = true ∨ ∀ q ∈ ps, q.valid = false) →
      (ps.length < Config.latReset →
        ∃ t, runEdges (p :: ps) s = .next t ∧ t.busy = true ∧ t.rspValid = false) ∧
      (ps.length = Config.latReset →
        ∃ t, runEdges (p :: ps) s = .next t ∧ RegistersReset t ∧ t.initialised = true ∧ t.inbox = s.inbox)

/-- R119: a command issued before the first reset completes is refused, as a transaction and at an edge, whatever is
under way: the initialisation after the first `rst` too.
The refusal is the model's reading of 93_implementation_defined.md part 2 (log entry 5). -/
def Obligations.CommandBeforeResetIsRefused : Prop :=
  ∀ (s : State) (w : CmdWord),
    s.initialised = false →
      step (s.offering (.command w)) = .refused .commandBeforeReset ∧
        step (s.offering (.edge ⟨false, true, w⟩)) = .refused .commandBeforeReset

/-! ## What each command does -/

/-- R89. -/
def Obligations.NopChangesNothing : Prop :=
  encode .nop = 0x0000#16 ∧ decode 0x0000#16 = .ok .nop ∧
    (∀ w : CmdWord, opField w = 0#4 → w ≠ 0x0000#16 → RaisesIllegal w) ∧
    ∀ s : State, ∃ t, exec .nop s = .next t ∧ NoEffect s t

/-- R90: in every state every register but `BUSY` takes its reset value. -/
def Obligations.ClearReturnsToTheResetState : Prop :=
  encode .clear = 0x1000#16 ∧ decode 0x1000#16 = .ok .clear ∧
    (∀ w : CmdWord, opField w = 1#4 → w ≠ 0x1000#16 → RaisesIllegal w) ∧
    ∀ s : State, ∃ t, exec .clear s = .next t ∧
      KeyZero t ∧ t.keyCount = 0#5 ∧ TablesIdentity t ∧ t.cursor = 0#4 ∧ t.mode = .encrypt ∧ t.dout = 0#8 ∧
      t.doutValid = false ∧ t.byteCount = 0#32 ∧ t.err = none ∧ t.fsm = .idle ∧ t.rspValid = false ∧ SideKept s t

/-- R91. -/
def Obligations.KeyByteAppendsOrFails : Prop :=
  (∀ d : Byte, encode (.keyByte d) = 0x2000#16 ||| d.setWidth 16 ∧
      decode (0x2000#16 ||| d.setWidth 16) = .ok (.keyByte d)) ∧
    (∀ w : CmdWord, opField w = 2#4 → argField w ≠ 0#4 → RaisesIllegal w) ∧
    ∀ (d : Byte) (s : State),
      (s.fsm = .idle → s.keyCount.toNat < 16 →
        ∃ t, exec (.keyByte d) s = .next t ∧
          (∀ i : BitVec 4, readKey t.key i = if i.toNat = s.keyCount.toNat then d else readKey s.key i) ∧
          t.keyCount.toNat = s.keyCount.toNat + 1 ∧
          t.fsm = (if s.keyCount.toNat = 15 then .keyLoaded else .idle) ∧ t.rspValid = false ∧
          t.fwd = s.fwd ∧ t.inv = s.inv ∧ t.cursor = s.cursor ∧ t.mode = s.mode ∧ t.err = s.err ∧
          t.dout = s.dout ∧ t.doutValid = s.doutValid ∧ t.byteCount = s.byteCount ∧ SideKept s t) ∧
      (s.fsm = .keyLoaded → ∃ t, exec (.keyByte d) s = .next t ∧ FailedWith .invalidKeySize s t) ∧
      (s.fsm = .streaming ∨ s.fsm = .completed →
        ∃ t, exec (.keyByte d) s = .next t ∧ FailedWith .sequenceError s t) ∧
      (s.fsm = .failed → ∃ t, exec (.keyByte d) s = .next t ∧ NoEffect s t)

/-- R92. -/
def Obligations.StartOpensAStreamOrFails : Prop :=
  encode (.start .encrypt) = 0x3000#16 ∧ encode (.start .decrypt) = 0x3100#16 ∧
    decode 0x3000#16 = .ok (.start .encrypt) ∧ decode 0x3100#16 = .ok (.start .decrypt) ∧
    (∀ w : CmdWord, opField w = 3#4 → w ≠ 0x3000#16 → w ≠ 0x3100#16 → RaisesIllegal w) ∧
    ∀ (m : Mode) (s : State),
      (s.fsm = .keyLoaded →
        ∃ t, exec (.start m) s = .next t ∧ TablesIdentity t ∧ t.cursor = 0#4 ∧ t.mode = m ∧ t.byteCount = 0#32 ∧
          t.dout = 0#8 ∧ t.doutValid = false ∧ t.fsm = .streaming ∧ t.rspValid = false ∧
          t.key = s.key ∧ t.keyCount = s.keyCount ∧ t.err = s.err ∧ SideKept s t) ∧
      (s.fsm = .idle → ∃ t, exec (.start m) s = .next t ∧ FailedWith .invalidKeySize s t) ∧
      (s.fsm = .streaming ∨ s.fsm = .completed →
        ∃ t, exec (.start m) s = .next t ∧ FailedWith .sequenceError s t) ∧
      (s.fsm = .failed → ∃ t, exec (.start m) s = .next t ∧ NoEffect s t)

/-- R81, with the key byte of R79: the round, the lookup after it, the advance. -/
def Obligations.ProcessRunsARoundThenSubstitutes : Prop :=
  (∀ b : Byte, encode (.process b) = 0x4000#16 ||| b.setWidth 16 ∧
      decode (0x4000#16 ||| b.setWidth 16) = .ok (.process b)) ∧
    (∀ w : CmdWord, opField w = 4#4 → argField w ≠ 0#4 → RaisesIllegal w) ∧
    ∀ (b : Byte) (s : State),
      (s.fsm = .streaming →
        ∃ t, exec (.process b) s = .next t ∧
          t.tables = applyRound (readKey s.key s.cursor) s.tables ∧
          t.dout = (if s.mode = .encrypt then readEntry t.fwd b else readEntry t.inv b) ∧
          t.doutValid = true ∧ t.rspValid = true ∧
          t.cursor.toNat = (s.cursor.toNat + 1) % 16 ∧ t.byteCount.toNat = (s.byteCount.toNat + 1) % 2 ^ 32 ∧
          t.key = s.key ∧ t.keyCount = s.keyCount ∧ t.mode = s.mode ∧ t.fsm = s.fsm ∧ t.err = s.err ∧ SideKept s t) ∧
      (s.fsm = .idle → ∃ t, exec (.process b) s = .next t ∧ FailedWith .keyNotLoaded s t) ∧
      (s.fsm = .keyLoaded ∨ s.fsm = .completed →
        ∃ t, exec (.process b) s = .next t ∧ FailedWith .sequenceError s t) ∧
      (s.fsm = .failed → ∃ t, exec (.process b) s = .next t ∧ NoEffect s t)

/-- R93. -/
def Obligations.FinishClosesTheStreamOrFails : Prop :=
  encode .finish = 0x5000#16 ∧ decode 0x5000#16 = .ok .finish ∧
    (∀ w : CmdWord, opField w = 5#4 → w ≠ 0x5000#16 → RaisesIllegal w) ∧
    ∀ s : State,
      (s.fsm = .streaming →
        ∃ t, exec .finish s = .next t ∧ KeyZero t ∧ t.keyCount = 0#5 ∧ TablesIdentity t ∧ t.cursor = 0#4 ∧
          t.fsm = .completed ∧ t.rspValid = false ∧ t.mode = s.mode ∧ t.byteCount = s.byteCount ∧ t.dout = s.dout ∧
          t.doutValid = s.doutValid ∧ t.err = s.err ∧ SideKept s t) ∧
      (s.fsm = .idle ∨ s.fsm = .keyLoaded ∨ s.fsm = .completed →
        ∃ t, exec .finish s = .next t ∧ FailedWith .sequenceError s t) ∧
      (s.fsm = .failed → ∃ t, exec .finish s = .next t ∧ NoEffect s t)

/-- R94, with the codes of R101: the five words of `ABORT`, their failures, and the words of its opcode that are no
command. -/
def Obligations.AbortFailsWithTheHostsCode : Prop :=
  (∀ c : BitVec 4, 1 ≤ c.toNat → c.toNat ≤ 5 →
      encode (.abort c) = 0x6000#16 ||| c.setWidth 16 <<< 8 ∧
        decode (0x6000#16 ||| c.setWidth 16 <<< 8) = .ok (.abort c)) ∧
    (∀ w : CmdWord, opField w = 6#4 → (argField w).toNat = 0 ∨ 6 ≤ (argField w).toNat ∨ dataField w ≠ 0#8 →
      RaisesIllegal w) ∧
    ∀ (c : BitVec 4) (s : State), 1 ≤ c.toNat → c.toNat ≤ 5 →
      (s.fsm ≠ .failed → ∃ t e, exec (.abort c) s = .next t ∧ failureCode e = c ∧ FailedWith e s t) ∧
      (s.fsm = .failed → ∃ t, exec (.abort c) s = .next t ∧ NoEffect s t)

/-- R97: legal in every state; outside `STREAMING`, where the invariant has the tables at the identity, it gives the
index back. -/
def Obligations.PeekFwdReadsTheForwardTable : Prop :=
  (∀ i : Byte, encode (.peekFwd i) = 0x7000#16 ||| i.setWidth 16 ∧
      decode (0x7000#16 ||| i.setWidth 16) = .ok (.peekFwd i)) ∧
    (∀ w : CmdWord, opField w = 7#4 → argField w ≠ 0#4 → RaisesIllegal w) ∧
    (∀ (i : Byte) (s : State),
      ∃ t, exec (.peekFwd i) s = .next t ∧ t.dout = readEntry s.fwd i ∧ t.doutValid = true ∧ t.rspValid = true ∧
        RegistersKept { s with dout := t.dout, doutValid := t.doutValid } t ∧ SideKept s t) ∧
    ∀ (i : Byte) (s : State), RegistersInv s → s.fsm ≠ .streaming →
      ∃ t, exec (.peekFwd i) s = .next t ∧ t.dout = i

/-- R98: legal in every state, and with inverse tables it undoes `PEEK_FWD`. -/
def Obligations.PeekInvReadsTheInverseTable : Prop :=
  (∀ i : Byte, encode (.peekInv i) = 0x8000#16 ||| i.setWidth 16 ∧
      decode (0x8000#16 ||| i.setWidth 16) = .ok (.peekInv i)) ∧
    (∀ w : CmdWord, opField w = 8#4 → argField w ≠ 0#4 → RaisesIllegal w) ∧
    (∀ (i : Byte) (s : State),
      ∃ t, exec (.peekInv i) s = .next t ∧ t.dout = readEntry s.inv i ∧ t.doutValid = true ∧ t.rspValid = true ∧
        RegistersKept { s with dout := t.dout, doutValid := t.doutValid } t ∧ SideKept s t) ∧
    ∀ (i : Byte) (s : State), MutualInverse s.tables →
      ∃ t u, exec (.peekFwd i) s = .next t ∧ exec (.peekInv t.dout) t = .next u ∧ u.dout = i

/-! ## Errors -/

/-- R64, R65: every word that decodes to no command is `Illegal`, and so is every word of a reserved opcode. -/
def Obligations.UndecodableWordsAreIllegal : Prop :=
  (∀ w : CmdWord, (∀ i, decode w ≠ .ok i) → RaisesIllegal w) ∧
    ∀ w : CmdWord, 9 ≤ (opField w).toNat → RaisesIllegal w

/-- R102: each cell of the table, against each meaning's own checks. -/
def Obligations.StateTableHolds : Prop :=
  ∀ (i : Instr) (s : State), wellFormed i = true →
    match disposition i s.fsm with
    | .runs => ∃ t, exec i s = .next t ∧ (t.fsm = .failed ↔ s.fsm = .failed ∧ i ≠ .clear)
    | .fails e => ∃ t, exec i s = .next t ∧ FailedWith e s t
    | .discarded => ∃ t, exec i s = .next t ∧ NoEffect s t

/-- R103: `FAILED` is entered by failure entry and in no other way. -/
def Obligations.FailureEntryIsTheOnlyWayToFail : Prop :=
  ∀ (w : CmdWord) (s t : State),
    runWord w s = .next t → s.fsm ≠ .failed → t.fsm = .failed → ∃ e, FailedWith e s t

/-- R104: in `FAILED` a `NOP`, `CLEAR` or `PEEK_*` runs by its own rule, `NOP` without effect, and every other word is
discarded in the busy time of a `NOP`. So only `CLEAR` moves the block on. -/
def Obligations.FailedIsLeftByClearOnly : Prop :=
  ∀ (w : CmdWord) (s : State), s.fsm = .failed →
    (decode w = .ok .clear → runWord w s = exec .clear s ∧ ∃ t, runWord w s = .next t ∧ t.fsm = .idle ∧ t.err = none) ∧
    (∀ i, decode w = .ok (.peekFwd i) → ∃ t, runWord w s = .next t ∧ t.dout = readEntry s.fwd i ∧
      t.rspValid = true ∧ RegistersKept { s with dout := t.dout, doutValid := true } t) ∧
    (∀ i, decode w = .ok (.peekInv i) → ∃ t, runWord w s = .next t ∧ t.dout = readEntry s.inv i ∧
      t.rspValid = true ∧ RegistersKept { s with dout := t.dout, doutValid := true } t) ∧
    (decode w ≠ .ok .clear → (∀ i, decode w ≠ .ok (.peekFwd i)) → (∀ i, decode w ≠ .ok (.peekInv i)) →
      latencyClassOf w s.fsm = .misc ∧ ∃ t, runWord w s = .next t ∧ NoEffect s t)

/-! ## Encoding -/

/-- R62, R63: the word of a well-formed command decodes to it, with every operand at every value. -/
def Obligations.DecodeOfEncode : Prop :=
  ∀ i : Instr, wellFormed i = true → decode (encode i) = .ok i

/-- R63: a word that decodes is the one word of a well-formed command, so no bit of it is ignored (R64). -/
def Obligations.EncodeOfDecode : Prop :=
  ∀ (w : CmdWord) (i : Instr), decode w = .ok i → wellFormed i = true ∧ encode i = w

/-- R62: a word decodes to a command exactly when it matches a row of the opcode map, and that row is the only one it
matches and has the command's mnemonic. -/
def Obligations.DecoderFollowsTheOpcodeMap : Prop :=
  ∀ w : CmdWord,
    ((∃ i, decode w = .ok i) ↔ ∃ r ∈ opcodeRows, matchesRow w r = true) ∧
      ∀ i, decode w = .ok i → ∀ r ∈ opcodeRows, matchesRow w r = true ↔ r.mnemonic = mnemonic i

/-- R63: how many words decode to a command. -/
def Obligations.DecodableWordCount : Prop :=
  (List.range 65536).countP (fun w => (decode (BitVec.ofNat 16 w)).isOk) = 1034

/-- Words written out from the encoding table (R62) decode to the commands they stand for, one of each family and more. -/
def Obligations.SampleWordsDecode : Prop :=
  decode 0x0000#16 = .ok .nop ∧ decode 0x1000#16 = .ok .clear ∧ decode 0x20FF#16 = .ok (.keyByte 0xFF#8) ∧
    decode 0x3100#16 = .ok (.start .decrypt) ∧ decode 0x4041#16 = .ok (.process 0x41#8) ∧
    decode 0x5000#16 = .ok .finish ∧ decode 0x6500#16 = .ok (.abort 5#4) ∧
    decode 0x70FF#16 = .ok (.peekFwd 0xFF#8) ∧ decode 0x80AB#16 = .ok (.peekInv 0xAB#8)

/-- R67: what the pseudo-instructions expand to, each command in order. -/
def Obligations.PseudoInstructionsExpand : Prop :=
  (∀ k : Key, (expandLine (.loadKey k)).length = 16 ∧
      ∀ j : BitVec 4, (expandLine (.loadKey k))[j.toNat]? = some (encode (.keyByte (readKey k j)))) ∧
    ∀ bs : List Byte, expandLine (.encryptBytes bs) = expandLine (.decryptBytes bs) ∧
      ∀ j : Nat, (expandLine (.encryptBytes bs))[j]? = bs[j]?.map fun b => encode (.process b)

/-! ## The step and the handshake -/

/-- A step takes the host's word, whatever it is, and runs it: at once where the block is ready, after the busy period
where it is not (R16, R17, R52). To run a word is to run the command it decodes to, and a word that decodes to none is
accepted like any command and is `Illegal` (R65).
The host's list of events is the model's form (log entries 1 and 13). -/
def Obligations.StepRunsTheDecodedCommand : Prop :=
  ∀ (s : State) (w : CmdWord) (rest : List HostEvent),
    s.inbox = .command w :: rest → s.initialised = true →
      (s.flight = none → step s = runWord w { s with inbox := rest }) ∧
      (∃ t, settle { s with inbox := rest } = .next t ∧ t.flight = none ∧ t.initialised = true ∧ t.inbox = rest ∧
        step s = runWord w t) ∧
      ∀ t, (∀ i, decode w = .ok i → runWord w t = exec i t) ∧
        ((∀ i, decode w ≠ .ok i) → runWord w t = takeIllegal t)

/-- R120, R19: with no command and no reset a ready block changes nothing, but the pulse ends (R32).
That an empty list of events is an idle clock edge is the model's form (log entry 1). -/
def Obligations.IdleEdgeChangesNothing : Prop :=
  ∀ s : State, s.initialised = true → s.inbox = [] → s.flight = none → ∃ t, step s = .next t ∧ NoEffect s t

/-- No step stops once a reset has completed: every command word, edge and reset has a next state. -/
def Obligations.EveryStepAfterResetCompletes : Prop :=
  ∀ s : State, s.initialised = true → ∃ t, step s = .next t ∧ t.initialised = true

/-- R122, R123, R16: a word accepted at an edge keeps the block busy for a latency within its class's bound, whatever the
host offers meanwhile. Until then no register changes, and then the state is the one of the word's transaction, but
for the count of free values drawn.
The latency is a free value (log entry 2), and when the registers are written is the model's reading (log entry 6). -/
def Obligations.HandshakeRefinesTheTransaction : Prop :=
  ∀ (s : State) (w : CmdWord), s.flight = none → s.initialised = true →
    ∃ n, 1 ≤ n ∧ n ≤ Config.latencyBound (latencyClassOf w s.fsm) ∧
      ∀ ps : List Pins, (∀ p ∈ ps, p.rst = false) →
        (ps.length < n →
          ∃ t, runEdges (⟨false, true, w⟩ :: ps) s = .next t ∧ t.busy = true ∧ t.rspValid = false ∧
            RegistersKept s t ∧ t.initialised = true) ∧
        (ps.length = n →
          ∃ t u, runEdges (⟨false, true, w⟩ :: ps) s = .next t ∧ transact w s = .next u ∧ t.busy = false ∧
            t = { u with draws := t.draws })

/-- R124: while the block is busy an offered word makes no difference, and `cmd_ready` and `rsp_valid` are 0. -/
def Obligations.OfferWhileBusyIsNotAccepted : Prop :=
  ∀ (s : State) (p q : Pins), s.initialised = true → s.busy = true → p.rst = false → q.rst = false →
    clockEdge p s = clockEdge q s ∧ (s.outputs false).cmdReady = false ∧ (s.outputs false).rspValid = false

/-- R34, R35, R18, R116: the ports of an initialised block. Ready with `rst` low: every field of `STATUS` at its bits,
reserved bits 0, and the other ports at their registers. Busy: `BUSY` reads 1. With `rst` high: `cmd_ready` and `rsp_valid`
are 0, whatever the state. In every cycle `cmd_ready` is `NOT BUSY AND NOT rst`. -/
def Obligations.StatusShowsTheRegisters : Prop :=
  ∀ s : State, s.initialised = true →
    (s.busy = false →
      let o := s.outputs false
      o.status.extractLsb' 0 3 = fsmCode s.fsm ∧ o.status.extractLsb' 3 1 = modeBit s.mode ∧
        o.status.extractLsb' 4 1 = 0#1 ∧ o.status.extractLsb' 5 1 = BitVec.ofBool s.doutValid ∧
        o.status.extractLsb' 6 2 = 0#2 ∧ o.status.extractLsb' 8 5 = s.keyCount ∧
        o.status.extractLsb' 13 3 = 0#3 ∧ o.status.extractLsb' 16 4 = s.cursor ∧
        o.status.extractLsb' 20 4 = errCode s.err ∧ o.status.extractLsb' 24 8 = s.dout ∧
        o.cmdReady = true ∧ o.rspValid = s.rspValid ∧ o.rspData = s.dout ∧ o.byteCount = s.byteCount) ∧
    (s.busy = true → (s.outputs false).status.extractLsb' 4 1 = 1#1 ∧ (s.outputs false).rspValid = false) ∧
    (s.outputs true).cmdReady = false ∧ (s.outputs true).rspValid = false ∧
    ∀ rst : Bool, (s.outputs rst).cmdReady = (!s.busy && !rst)

/-! ## Invariants -/

/-- The invariant of R22, R26 and R41 holds at reset. At power-up R119 leaves every register unspecified, and `StateInv`
asks nothing of the registers before the first reset completes: only its clauses on the model's own fields are claimed
there. They hold by the model's choice of what a block busy at power-up works at, and for how long (log entries 5
and 21). -/
def Obligations.ResetAndPowerUpMeetTheInvariant : Prop :=
  StateInv State.reset ∧ ∀ l : List HostEvent, StateInv (State.powerUp l)

/-- R22, R26, R41 at every command boundary: every step keeps the invariant, from every state that meets it.
Its clauses on busy periods and pulses are about the model's fields (log entries 2, 5, 12 and 21). -/
def Obligations.StepKeepsTheInvariant : Prop :=
  ∀ s t : State, StateInv s → step s = .next t → StateInv t

/-! ## The round -/

/-- R68, with its corner cases: 0, 1 and 2 give the same round, and no key byte gives a block size of 1 or 256. -/
def Obligations.BlockSizeOfKeyByte : Prop :=
  ∀ k : Byte, (k = 0#8 ∨ k = 1#8 → blockSize k = 2) ∧ (k ≠ 0#8 → k ≠ 1#8 → blockSize k = k.toNat) ∧
    2 ≤ blockSize k ∧ blockSize k ≤ 255 ∧
    ∀ t : Tables, applyRound 0#8 t = applyRound 2#8 t ∧ applyRound 1#8 t = applyRound 2#8 t

/-- R69: the paired swap of two positions of inverse tables, entry by entry. -/
def Obligations.SwapExchangesTwoEntries : Prop :=
  ∀ (a b : Byte) (t : Tables), a ≠ b → MutualInverse t →
    (∀ p, readEntry (swapEntries a b t).fwd p =
      if p = a then readEntry t.fwd b else if p = b then readEntry t.fwd a else readEntry t.fwd p) ∧
    (∀ v, readEntry (swapEntries a b t).inv v =
      if v = readEntry t.fwd a then b else if v = readEntry t.fwd b then a else readEntry t.inv v)

/-- R73, R70, R71: the loops of the round are the permutation of positions `rho_k`, in both tables. -/
def Obligations.RoundIsItsClosedForm : Prop :=
  ∀ (k : Byte) (t : Tables), MutualInverse t →
    (∀ p, readEntry (applyRound k t).fwd p = readEntry t.fwd (rho k p)) ∧
      ∀ v, readEntry (applyRound k t).inv v = rho k (readEntry t.inv v)

/-- R74: `rho_k` is an involution, and two rounds with one key byte restore both tables. -/
def Obligations.RoundUndoesItself : Prop :=
  (∀ k p : Byte, rho k (rho k p) = p) ∧
    ∀ (k : Byte) (t : Tables), MutualInverse t → applyRound k (applyRound k t) = t

/-- R76, R22: a round, and each swap of two different positions, keeps the tables mutual inverses. -/
def Obligations.RoundKeepsTablesInverse : Prop :=
  (∀ (a b : Byte) (t : Tables), a ≠ b → MutualInverse t → MutualInverse (swapEntries a b t)) ∧
    ∀ (k : Byte) (t : Tables), MutualInverse t → MutualInverse (applyRound k t)

/-- R75: the tables after any number of rounds from the identity. -/
def Obligations.RoundsComposeFromTheIdentity : Prop :=
  ∀ (ks : List Byte) (x : Byte),
    readEntry (applyRounds ks identityTables).fwd x = ks.foldr rho x ∧
      readEntry (applyRounds ks identityTables).inv x = ks.foldl (fun v k => rho k v) x

/-- R77: no position takes part in two swaps of a round, so the swaps commute: in any order they give the round's tables.
Their number is that of R78. -/
def Obligations.SwapsOfARoundCommute : Prop :=
  ∀ (k : Byte),
    (roundSwaps k).length = 256 / blockSize k * (blockSize k / 2) + 256 % blockSize k / 2 ∧
    (roundSwaps k).length ≤ 128 ∧ ((roundSwaps k).flatMap fun p => [p.1, p.2]).Nodup ∧
      ∀ (t : Tables) (l : List (Byte × Byte)), MutualInverse t → l.Perm (roundSwaps k) → applySwaps l t = applyRound k t

/-! ## What commands keep -/

/-- R80: how `CURSOR` moves. Every entry into `FAILED` is failure entry. -/
def Obligations.OnlyProcessAdvancesTheCursor : Prop :=
  (∀ (i : Instr) (s t : State), exec i s = .next t →
    t.cursor =
      match i, s.fsm with
      | .process _, .streaming => s.cursor + 1#4
      | .clear, _ => 0#4
      | .start _, .keyLoaded => 0#4
      | .finish, .streaming => 0#4
      | _, _ => if t.fsm = .failed ∧ s.fsm ≠ .failed then 0#4 else s.cursor) ∧
    ∀ s : State, ∃ t, step (s.offering .reset) = .next t ∧ t.cursor = 0#4

/-- R33, R111: how `BYTE_COUNT` moves. It is kept by all else, failure entry included. -/
def Obligations.ByteCountCountsProcess : Prop :=
  (∀ (i : Instr) (s t : State), exec i s = .next t →
    t.byteCount =
      match i, s.fsm with
      | .process _, .streaming => s.byteCount + 1#32
      | .clear, _ => 0#32
      | .start _, .keyLoaded => 0#32
      | _, _ => s.byteCount) ∧
    ∀ s : State, ∃ t, step (s.offering .reset) = .next t ∧ t.byteCount = 0#32

/-- R30, R82: `MODE` is latched by `START` and left alone by all else but `CLEAR`. -/
def Obligations.OnlyStartAndClearSetTheMode : Prop :=
  ∀ (i : Instr) (s t : State), exec i s = .next t →
    t.mode =
      match i, s.fsm with
      | .start m, .keyLoaded => m
      | .clear, _ => .encrypt
      | _, _ => s.mode

/-- R24: only the round of a `PROCESS` moves the tables away from the identity; any other command leaves them or restores
the identity, and `PEEK_*` read them without writing. -/
def Obligations.OnlyProcessMutatesTheTables : Prop :=
  (∀ (i : Instr) (s t : State), exec i s = .next t →
    t.tables = s.tables ∨ TablesIdentity t ∨
      ∃ b, i = .process b ∧ s.fsm = .streaming ∧ t.tables = applyRound (readKey s.key s.cursor) s.tables) ∧
    ∀ (x : Byte) (s : State),
      (∃ t, exec (.peekFwd x) s = .next t ∧ t.tables = s.tables) ∧
        ∃ t, exec (.peekInv x) s = .next t ∧ t.tables = s.tables

/-- R32, R125: a result stays in `DOUT` until the next result, `START`, `CLEAR` or failure entry, and every result is
announced by a pulse. -/
def Obligations.ResultStaysUntilOverwritten : Prop :=
  ∀ (i : Instr) (s t : State), exec i s = .next t →
    (t.rspValid = true ↔
      ((∃ b, i = .process b) ∧ s.fsm = .streaming ∨ (∃ x, i = .peekFwd x) ∨ ∃ x, i = .peekInv x)) ∧
    (t.rspValid = true → t.doutValid = true) ∧
    (t.rspValid = false →
      t.dout = s.dout ∧ t.doutValid = s.doutValid ∨
        t.dout = 0#8 ∧ t.doutValid = false ∧
          (i = .clear ∨ t.fsm = .streaming ∧ s.fsm = .keyLoaded ∨ t.fsm = .failed ∧ s.fsm ≠ .failed))

/-- R27: the key is erased on every exit: `CLEAR`, `FINISH`, failure entry and reset. -/
def Obligations.KeyIsErasedOnEveryExit : Prop :=
  (∀ (i : Instr) (s t : State), exec i s = .next t →
    (i = .clear ∨ t.fsm = .completed ∧ s.fsm ≠ .completed ∨ t.fsm = .failed ∧ s.fsm ≠ .failed) →
      KeyZero t ∧ t.keyCount = 0#5) ∧
    KeyZero State.reset ∧ State.reset.keyCount = 0#5 ∧
    ∀ s : State, ∃ t, step (s.offering .reset) = .next t ∧ KeyZero t ∧ t.keyCount = 0#5

/-- R25: a loaded key is never changed, only erased.
That erasing is no change of the key is the model's reading (log entry 11). -/
def Obligations.LoadedKeyIsImmutable : Prop :=
  ∀ (i : Instr) (s t : State), exec i s = .next t → s.fsm = .keyLoaded ∨ s.fsm = .streaming →
    t.key = s.key ∧ t.keyCount = s.keyCount ∨ KeyZero t ∧ t.keyCount = 0#5

/-- R25: nothing but the round of a `PROCESS` depends on the key, and no port shows it.
In a busy cycle, in one with `rst` high and before the first reset completes R35, R116 and R119 leave ports unspecified:
that their values there do not depend on the key is the model's choice (log entry 3: a free value is a function of
`draws` alone). -/
def Obligations.KeyIsNotReadOut : Prop :=
  (∀ (i : Instr) (s : State) (k : Key), ¬ ((∃ b, i = .process b) ∧ s.fsm = .streaming) →
    ∃ t k', exec i s = .next t ∧ exec i { s with key := k } = .next { t with key := k' }) ∧
    ∀ (s : State) (k : Key) (rst : Bool), ({ s with key := k } : State).outputs rst = s.outputs rst

/-- R96: the stream states move forward only, but for `CLEAR`. -/
def Obligations.StreamStatesMoveForward : Prop :=
  ∀ (i : Instr) (s t : State), exec i s = .next t →
    t.fsm = s.fsm ∨ i = .clear ∧ t.fsm = .idle ∨ s.fsm = .idle ∧ t.fsm = .keyLoaded ∨
      s.fsm = .keyLoaded ∧ t.fsm = .streaming ∨ s.fsm = .streaming ∧ t.fsm = .completed ∨
        s.fsm ≠ .failed ∧ t.fsm = .failed

/-! ## Streams -/

/-- R45, R91: 16 key bytes in order load the key in that order. -/
def Obligations.SixteenKeyBytesLoadTheKey : Prop :=
  ∀ (k : Key) (s : State), s.fsm = .idle → s.keyCount = 0#5 →
    ∃ t, runCommands (k.toList.map .keyByte) s = some ([], t) ∧ t.key = k ∧ t.keyCount = 16#5 ∧ t.fsm = .keyLoaded ∧
      t.fwd = s.fwd ∧ t.inv = s.inv ∧ t.cursor = s.cursor ∧ t.mode = s.mode ∧ t.err = s.err ∧ t.dout = s.dout ∧
      t.doutValid = s.doutValid ∧ t.byteCount = s.byteCount

/-- R95: a key of any other length fails with `INVALID_KEY_SIZE` in both modes and gives no output byte. -/
def Obligations.WrongKeyLengthFails : Prop :=
  ∀ (ks : List Byte) (m : Mode) (s : State), s.fsm = .idle → s.keyCount = 0#5 →
    (ks.length < 16 →
      ∃ t, runCommands (ks.map .keyByte ++ [.start m]) s = some ([], t) ∧ FailedWith .invalidKeySize s t) ∧
    (16 < ks.length →
      ∃ t, runCommands (ks.map .keyByte) s = some ([], t) ∧ FailedWith .invalidKeySize s t)

/-- R79, R83, R85, R46: a stream of `n` bytes gives `n` outputs and runs one round per byte, keyed by the key bytes from
the cursor on modulo 16. The tables depend on the key alone: neither on the data nor on the mode. -/
def Obligations.StreamTablesFollowTheKeyAlone : Prop :=
  ∀ (bs : List Byte) (m : Mode) (s : State), s.fsm = .streaming →
    ∃ out t, runCommands (bs.map .process) { s with mode := m } = some (out, t) ∧
      t.tables = applyRounds (keyStream s bs.length) s.tables ∧ out.length = bs.length ∧
      t.cursor.toNat = (s.cursor.toNat + bs.length) % 16 ∧
      t.byteCount.toNat = (s.byteCount.toNat + bs.length) % 2 ^ 32 ∧ t.key = s.key ∧ t.fsm = .streaming ∧ t.mode = m

/-- R84: a decrypt stream fed the output of an encrypt stream with the same key outputs the message, for every key and
every message, the empty one included. -/
def Obligations.DecryptUndoesEncrypt : Prop :=
  ∀ (k : Key) (msg : List Byte) (s u : State),
    s.fsm = .idle → s.keyCount = 0#5 → u.fsm = .idle → u.keyCount = 0#5 →
      ∃ c t v, runCommands (session .encrypt k msg) s = some (c, t) ∧
        runCommands (session .decrypt k c) u = some (msg, v) ∧ c.length = msg.length ∧
        t.fsm = .completed ∧ t.mode = .encrypt ∧ v.fsm = .completed ∧ v.mode = .decrypt

/-- R85: the outputs of a whole stream depend on the key, the message and the mode only. -/
def Obligations.StreamOutputIsDeterministic : Prop :=
  ∀ (m : Mode) (k : Key) (msg : List Byte) (s u : State),
    s.fsm = .idle → s.keyCount = 0#5 → u.fsm = .idle → u.keyCount = 0#5 →
      ∃ out t v, runCommands (session m k msg) s = some (out, t) ∧
        runCommands (session m k msg) u = some (out, v) ∧ out.length = msg.length

/-- R88: keys that differ only by exchanging 0, 1 and 2 give the same outputs under every sequence of commands. -/
def Obligations.EquivalentKeysGiveEqualOutputs : Prop :=
  ∀ (is : List Instr) (s : State) (k : Key),
    (∀ j, readKey k j = readKey s.key j ∨ (readKey k j).toNat ≤ 2 ∧ (readKey s.key j).toNat ≤ 2) →
      ∃ out t u, runCommands is s = some (out, t) ∧ runCommands is { s with key := k } = some (out, u) ∧
        t.tables = u.tables
end

