-- ==== Sys2Proof/Laws/State.lean ====
section
/-! SUPPORT. What each named update leaves in each field, so that no proof unfolds a record update. -/

namespace Sys2Proof.Machine

@[simp] theorem State.noPulse_fwd (s : State) : (s.noPulse).fwd = s.fwd := rfl
@[simp] theorem State.noPulse_inv (s : State) : (s.noPulse).inv = s.inv := rfl
@[simp] theorem State.noPulse_key (s : State) : (s.noPulse).key = s.key := rfl
@[simp] theorem State.noPulse_keyCount (s : State) : (s.noPulse).keyCount = s.keyCount := rfl
@[simp] theorem State.noPulse_cursor (s : State) : (s.noPulse).cursor = s.cursor := rfl
@[simp] theorem State.noPulse_mode (s : State) : (s.noPulse).mode = s.mode := rfl
@[simp] theorem State.noPulse_fsm (s : State) : (s.noPulse).fsm = s.fsm := rfl
@[simp] theorem State.noPulse_err (s : State) : (s.noPulse).err = s.err := rfl
@[simp] theorem State.noPulse_dout (s : State) : (s.noPulse).dout = s.dout := rfl
@[simp] theorem State.noPulse_doutValid (s : State) : (s.noPulse).doutValid = s.doutValid := rfl
@[simp] theorem State.noPulse_byteCount (s : State) : (s.noPulse).byteCount = s.byteCount := rfl
@[simp] theorem State.noPulse_flight (s : State) : (s.noPulse).flight = s.flight := rfl
@[simp] theorem State.noPulse_rspValid (s : State) : (s.noPulse).rspValid = false := rfl
@[simp] theorem State.noPulse_initialised (s : State) : (s.noPulse).initialised = s.initialised := rfl
@[simp] theorem State.noPulse_inbox (s : State) : (s.noPulse).inbox = s.inbox := rfl
@[simp] theorem State.noPulse_draws (s : State) : (s.noPulse).draws = s.draws := rfl

@[simp] theorem State.output_fwd (r : Byte) (s : State) : (s.output r).fwd = s.fwd := rfl
@[simp] theorem State.output_inv (r : Byte) (s : State) : (s.output r).inv = s.inv := rfl
@[simp] theorem State.output_key (r : Byte) (s : State) : (s.output r).key = s.key := rfl
@[simp] theorem State.output_keyCount (r : Byte) (s : State) : (s.output r).keyCount = s.keyCount := rfl
@[simp] theorem State.output_cursor (r : Byte) (s : State) : (s.output r).cursor = s.cursor := rfl
@[simp] theorem State.output_mode (r : Byte) (s : State) : (s.output r).mode = s.mode := rfl
@[simp] theorem State.output_fsm (r : Byte) (s : State) : (s.output r).fsm = s.fsm := rfl
@[simp] theorem State.output_err (r : Byte) (s : State) : (s.output r).err = s.err := rfl
@[simp] theorem State.output_dout (r : Byte) (s : State) : (s.output r).dout = r := rfl
@[simp] theorem State.output_doutValid (r : Byte) (s : State) : (s.output r).doutValid = true := rfl
@[simp] theorem State.output_byteCount (r : Byte) (s : State) : (s.output r).byteCount = s.byteCount := rfl
@[simp] theorem State.output_flight (r : Byte) (s : State) : (s.output r).flight = s.flight := rfl
@[simp] theorem State.output_rspValid (r : Byte) (s : State) : (s.output r).rspValid = true := rfl
@[simp] theorem State.output_initialised (r : Byte) (s : State) : (s.output r).initialised = s.initialised := rfl
@[simp] theorem State.output_inbox (r : Byte) (s : State) : (s.output r).inbox = s.inbox := rfl
@[simp] theorem State.output_draws (r : Byte) (s : State) : (s.output r).draws = s.draws := rfl

@[simp] theorem State.failEntry_fwd (e : Failure) (s : State) : (s.failEntry e).fwd = identityTable := rfl
@[simp] theorem State.failEntry_inv (e : Failure) (s : State) : (s.failEntry e).inv = identityTable := rfl
@[simp] theorem State.failEntry_key (e : Failure) (s : State) : (s.failEntry e).key = zeroKey := rfl
@[simp] theorem State.failEntry_keyCount (e : Failure) (s : State) : (s.failEntry e).keyCount = 0#5 := rfl
@[simp] theorem State.failEntry_cursor (e : Failure) (s : State) : (s.failEntry e).cursor = 0#4 := rfl
@[simp] theorem State.failEntry_mode (e : Failure) (s : State) : (s.failEntry e).mode = s.mode := rfl
@[simp] theorem State.failEntry_fsm (e : Failure) (s : State) : (s.failEntry e).fsm = .failed := rfl
@[simp] theorem State.failEntry_err (e : Failure) (s : State) : (s.failEntry e).err = some e := rfl
@[simp] theorem State.failEntry_dout (e : Failure) (s : State) : (s.failEntry e).dout = 0#8 := rfl
@[simp] theorem State.failEntry_doutValid (e : Failure) (s : State) : (s.failEntry e).doutValid = false := rfl
@[simp] theorem State.failEntry_byteCount (e : Failure) (s : State) : (s.failEntry e).byteCount = s.byteCount := rfl
@[simp] theorem State.failEntry_flight (e : Failure) (s : State) : (s.failEntry e).flight = s.flight := rfl
@[simp] theorem State.failEntry_rspValid (e : Failure) (s : State) : (s.failEntry e).rspValid = false := rfl
@[simp] theorem State.failEntry_initialised (e : Failure) (s : State) : (s.failEntry e).initialised = s.initialised := rfl
@[simp] theorem State.failEntry_inbox (e : Failure) (s : State) : (s.failEntry e).inbox = s.inbox := rfl
@[simp] theorem State.failEntry_draws (e : Failure) (s : State) : (s.failEntry e).draws = s.draws := rfl

@[simp] theorem State.appendKeyByte_fwd (d : Byte) (s : State) : (s.appendKeyByte d).fwd = s.fwd := rfl
@[simp] theorem State.appendKeyByte_inv (d : Byte) (s : State) : (s.appendKeyByte d).inv = s.inv := rfl
@[simp] theorem State.appendKeyByte_key (d : Byte) (s : State) : (s.appendKeyByte d).key = s.key.setIfInBounds s.keyCount.toNat d := rfl
@[simp] theorem State.appendKeyByte_keyCount (d : Byte) (s : State) : (s.appendKeyByte d).keyCount = s.keyCount + 1#5 := rfl
@[simp] theorem State.appendKeyByte_cursor (d : Byte) (s : State) : (s.appendKeyByte d).cursor = s.cursor := rfl
@[simp] theorem State.appendKeyByte_mode (d : Byte) (s : State) : (s.appendKeyByte d).mode = s.mode := rfl
@[simp] theorem State.appendKeyByte_fsm (d : Byte) (s : State) : (s.appendKeyByte d).fsm = if s.keyCount + 1#5 = 16#5 then .keyLoaded else s.fsm := rfl
@[simp] theorem State.appendKeyByte_err (d : Byte) (s : State) : (s.appendKeyByte d).err = s.err := rfl
@[simp] theorem State.appendKeyByte_dout (d : Byte) (s : State) : (s.appendKeyByte d).dout = s.dout := rfl
@[simp] theorem State.appendKeyByte_doutValid (d : Byte) (s : State) : (s.appendKeyByte d).doutValid = s.doutValid := rfl
@[simp] theorem State.appendKeyByte_byteCount (d : Byte) (s : State) : (s.appendKeyByte d).byteCount = s.byteCount := rfl
@[simp] theorem State.appendKeyByte_flight (d : Byte) (s : State) : (s.appendKeyByte d).flight = s.flight := rfl
@[simp] theorem State.appendKeyByte_rspValid (d : Byte) (s : State) : (s.appendKeyByte d).rspValid = false := rfl
@[simp] theorem State.appendKeyByte_initialised (d : Byte) (s : State) : (s.appendKeyByte d).initialised = s.initialised := rfl
@[simp] theorem State.appendKeyByte_inbox (d : Byte) (s : State) : (s.appendKeyByte d).inbox = s.inbox := rfl
@[simp] theorem State.appendKeyByte_draws (d : Byte) (s : State) : (s.appendKeyByte d).draws = s.draws := rfl

@[simp] theorem State.substitute_fwd (b : Byte) (s : State) : (s.substitute b).fwd = (applyRound s.currentKeyByte s.tables).fwd := rfl
@[simp] theorem State.substitute_inv (b : Byte) (s : State) : (s.substitute b).inv = (applyRound s.currentKeyByte s.tables).inv := rfl
@[simp] theorem State.substitute_key (b : Byte) (s : State) : (s.substitute b).key = s.key := rfl
@[simp] theorem State.substitute_keyCount (b : Byte) (s : State) : (s.substitute b).keyCount = s.keyCount := rfl
@[simp] theorem State.substitute_cursor (b : Byte) (s : State) : (s.substitute b).cursor = s.cursor + 1#4 := rfl
@[simp] theorem State.substitute_mode (b : Byte) (s : State) : (s.substitute b).mode = s.mode := rfl
@[simp] theorem State.substitute_fsm (b : Byte) (s : State) : (s.substitute b).fsm = s.fsm := rfl
@[simp] theorem State.substitute_err (b : Byte) (s : State) : (s.substitute b).err = s.err := rfl
@[simp] theorem State.substitute_dout (b : Byte) (s : State) : (s.substitute b).dout = lookup s.mode (applyRound s.currentKeyByte s.tables) b := rfl
@[simp] theorem State.substitute_doutValid (b : Byte) (s : State) : (s.substitute b).doutValid = true := rfl
@[simp] theorem State.substitute_byteCount (b : Byte) (s : State) : (s.substitute b).byteCount = s.byteCount + 1#32 := rfl
@[simp] theorem State.substitute_flight (b : Byte) (s : State) : (s.substitute b).flight = s.flight := rfl
@[simp] theorem State.substitute_rspValid (b : Byte) (s : State) : (s.substitute b).rspValid = true := rfl
@[simp] theorem State.substitute_initialised (b : Byte) (s : State) : (s.substitute b).initialised = s.initialised := rfl
@[simp] theorem State.substitute_inbox (b : Byte) (s : State) : (s.substitute b).inbox = s.inbox := rfl
@[simp] theorem State.substitute_draws (b : Byte) (s : State) : (s.substitute b).draws = s.draws := rfl

@[simp] theorem State.resetRegisters_fwd (s : State) : (s.resetRegisters).fwd = identityTable := rfl
@[simp] theorem State.resetRegisters_inv (s : State) : (s.resetRegisters).inv = identityTable := rfl
@[simp] theorem State.resetRegisters_key (s : State) : (s.resetRegisters).key = zeroKey := rfl
@[simp] theorem State.resetRegisters_keyCount (s : State) : (s.resetRegisters).keyCount = 0#5 := rfl
@[simp] theorem State.resetRegisters_cursor (s : State) : (s.resetRegisters).cursor = 0#4 := rfl
@[simp] theorem State.resetRegisters_mode (s : State) : (s.resetRegisters).mode = .encrypt := rfl
@[simp] theorem State.resetRegisters_fsm (s : State) : (s.resetRegisters).fsm = .idle := rfl
@[simp] theorem State.resetRegisters_err (s : State) : (s.resetRegisters).err = none := rfl
@[simp] theorem State.resetRegisters_dout (s : State) : (s.resetRegisters).dout = 0#8 := rfl
@[simp] theorem State.resetRegisters_doutValid (s : State) : (s.resetRegisters).doutValid = false := rfl
@[simp] theorem State.resetRegisters_byteCount (s : State) : (s.resetRegisters).byteCount = 0#32 := rfl
@[simp] theorem State.resetRegisters_flight (s : State) : (s.resetRegisters).flight = none := rfl
@[simp] theorem State.resetRegisters_rspValid (s : State) : (s.resetRegisters).rspValid = false := rfl
@[simp] theorem State.resetRegisters_initialised (s : State) : (s.resetRegisters).initialised = true := rfl
@[simp] theorem State.resetRegisters_inbox (s : State) : (s.resetRegisters).inbox = s.inbox := rfl
@[simp] theorem State.resetRegisters_draws (s : State) : (s.resetRegisters).draws = s.draws := rfl

@[simp] theorem State.resetEdge_fwd (s : State) : (resetEdge s).fwd = s.fwd := rfl
@[simp] theorem State.resetEdge_inv (s : State) : (resetEdge s).inv = s.inv := rfl
@[simp] theorem State.resetEdge_key (s : State) : (resetEdge s).key = s.key := rfl
@[simp] theorem State.resetEdge_keyCount (s : State) : (resetEdge s).keyCount = s.keyCount := rfl
@[simp] theorem State.resetEdge_cursor (s : State) : (resetEdge s).cursor = s.cursor := rfl
@[simp] theorem State.resetEdge_mode (s : State) : (resetEdge s).mode = s.mode := rfl
@[simp] theorem State.resetEdge_fsm (s : State) : (resetEdge s).fsm = s.fsm := rfl
@[simp] theorem State.resetEdge_err (s : State) : (resetEdge s).err = s.err := rfl
@[simp] theorem State.resetEdge_dout (s : State) : (resetEdge s).dout = s.dout := rfl
@[simp] theorem State.resetEdge_doutValid (s : State) : (resetEdge s).doutValid = s.doutValid := rfl
@[simp] theorem State.resetEdge_byteCount (s : State) : (resetEdge s).byteCount = s.byteCount := rfl
@[simp] theorem State.resetEdge_flight (s : State) : (resetEdge s).flight = some ⟨.resetInit, Config.latReset⟩ := rfl
@[simp] theorem State.resetEdge_rspValid (s : State) : (resetEdge s).rspValid = false := rfl
@[simp] theorem State.resetEdge_initialised (s : State) : (resetEdge s).initialised = s.initialised := rfl
@[simp] theorem State.resetEdge_inbox (s : State) : (resetEdge s).inbox = s.inbox := rfl
@[simp] theorem State.resetEdge_draws (s : State) : (resetEdge s).draws = s.draws + 1 := rfl

@[simp] theorem State.acceptWord_fwd (w : CmdWord) (s : State) : (acceptWord w s).fwd = s.fwd := rfl
@[simp] theorem State.acceptWord_inv (w : CmdWord) (s : State) : (acceptWord w s).inv = s.inv := rfl
@[simp] theorem State.acceptWord_key (w : CmdWord) (s : State) : (acceptWord w s).key = s.key := rfl
@[simp] theorem State.acceptWord_keyCount (w : CmdWord) (s : State) : (acceptWord w s).keyCount = s.keyCount := rfl
@[simp] theorem State.acceptWord_cursor (w : CmdWord) (s : State) : (acceptWord w s).cursor = s.cursor := rfl
@[simp] theorem State.acceptWord_mode (w : CmdWord) (s : State) : (acceptWord w s).mode = s.mode := rfl
@[simp] theorem State.acceptWord_fsm (w : CmdWord) (s : State) : (acceptWord w s).fsm = s.fsm := rfl
@[simp] theorem State.acceptWord_err (w : CmdWord) (s : State) : (acceptWord w s).err = s.err := rfl
@[simp] theorem State.acceptWord_dout (w : CmdWord) (s : State) : (acceptWord w s).dout = s.dout := rfl
@[simp] theorem State.acceptWord_doutValid (w : CmdWord) (s : State) : (acceptWord w s).doutValid = s.doutValid := rfl
@[simp] theorem State.acceptWord_byteCount (w : CmdWord) (s : State) : (acceptWord w s).byteCount = s.byteCount := rfl
@[simp] theorem State.acceptWord_flight (w : CmdWord) (s : State) : (acceptWord w s).flight = some ⟨.command w, latencyOf (latencyClassOf w s.fsm) s.draws⟩ := rfl
@[simp] theorem State.acceptWord_rspValid (w : CmdWord) (s : State) : (acceptWord w s).rspValid = false := rfl
@[simp] theorem State.acceptWord_initialised (w : CmdWord) (s : State) : (acceptWord w s).initialised = s.initialised := rfl
@[simp] theorem State.acceptWord_inbox (w : CmdWord) (s : State) : (acceptWord w s).inbox = s.inbox := rfl
@[simp] theorem State.acceptWord_draws (w : CmdWord) (s : State) : (acceptWord w s).draws = s.draws + 1 := rfl

@[simp] theorem State.offering_fwd (e : HostEvent) (s : State) : (s.offering e).fwd = s.fwd := rfl
@[simp] theorem State.offering_inv (e : HostEvent) (s : State) : (s.offering e).inv = s.inv := rfl
@[simp] theorem State.offering_key (e : HostEvent) (s : State) : (s.offering e).key = s.key := rfl
@[simp] theorem State.offering_keyCount (e : HostEvent) (s : State) : (s.offering e).keyCount = s.keyCount := rfl
@[simp] theorem State.offering_cursor (e : HostEvent) (s : State) : (s.offering e).cursor = s.cursor := rfl
@[simp] theorem State.offering_mode (e : HostEvent) (s : State) : (s.offering e).mode = s.mode := rfl
@[simp] theorem State.offering_fsm (e : HostEvent) (s : State) : (s.offering e).fsm = s.fsm := rfl
@[simp] theorem State.offering_err (e : HostEvent) (s : State) : (s.offering e).err = s.err := rfl
@[simp] theorem State.offering_dout (e : HostEvent) (s : State) : (s.offering e).dout = s.dout := rfl
@[simp] theorem State.offering_doutValid (e : HostEvent) (s : State) : (s.offering e).doutValid = s.doutValid := rfl
@[simp] theorem State.offering_byteCount (e : HostEvent) (s : State) : (s.offering e).byteCount = s.byteCount := rfl
@[simp] theorem State.offering_flight (e : HostEvent) (s : State) : (s.offering e).flight = s.flight := rfl
@[simp] theorem State.offering_rspValid (e : HostEvent) (s : State) : (s.offering e).rspValid = s.rspValid := rfl
@[simp] theorem State.offering_initialised (e : HostEvent) (s : State) : (s.offering e).initialised = s.initialised := rfl
@[simp] theorem State.offering_inbox (e : HostEvent) (s : State) : (s.offering e).inbox = e :: s.inbox := rfl
@[simp] theorem State.offering_draws (e : HostEvent) (s : State) : (s.offering e).draws = s.draws := rfl

@[simp] theorem State.tables_fwd (s : State) : s.tables.fwd = s.fwd := rfl
@[simp] theorem State.tables_inv (s : State) : s.tables.inv = s.inv := rfl
@[simp] theorem State.substitute_tables (b : Byte) (s : State) : (s.substitute b).tables = applyRound s.currentKeyByte s.tables := rfl

end Sys2Proof.Machine
end

