-- ==== Sys2Proof/Laws/Tables.lean ====
section
/-! SUPPORT. Reading and writing a table entry and a key byte. -/

namespace Sys2Proof.Machine

@[simp] theorem readEntry_writeEntry_same (t : Table) (i v : Byte) : readEntry (writeEntry t i v) i = v := by
  simp [readEntry, writeEntry]

@[simp] theorem readEntry_writeEntry_other (t : Table) (i j v : Byte) (h : i ≠ j) :
    readEntry (writeEntry t i v) j = readEntry t j := by
  have hn : i.toNat ≠ j.toNat := fun e => h (BitVec.eq_of_toNat_eq e)
  simp [readEntry, writeEntry, Vector.getElem_set_ne, hn]

/-- One entry after a write, at any index. -/
theorem readEntry_writeEntry (t : Table) (i j v : Byte) :
    readEntry (writeEntry t i v) j = if i = j then v else readEntry t j := by
  split
  · next h => subst h; simp
  · next h => exact readEntry_writeEntry_other t i j v h

@[simp] theorem readEntry_identityTable (i : Byte) : readEntry identityTable i = i := by
  unfold readEntry identityTable
  rw [Vector.getElem_ofFn]
  exact BitVec.ofNat_toNat 8 i

@[simp] theorem readKey_zeroKey (i : BitVec 4) : readKey zeroKey i = 0#8 := by
  simp [readKey, zeroKey]

/-- Tables with the same entries are the same table. -/
theorem table_ext (a b : Table) (h : ∀ i, readEntry a i = readEntry b i) : a = b := by
  apply Vector.ext
  intro i hi
  have := h (BitVec.ofNat 8 i)
  simpa [readEntry, Nat.mod_eq_of_lt (show i < 256 from hi)] using this

/-- Keys with the same bytes are the same key. -/
theorem key_ext (a b : Key) (h : ∀ i, readKey a i = readKey b i) : a = b := by
  apply Vector.ext
  intro i hi
  have := h (BitVec.ofNat 4 i)
  simpa [readKey, Nat.mod_eq_of_lt (show i < 16 from hi)] using this

/-- One key byte after `KEY[n] <- d`. -/
theorem readKey_setIfInBounds (k : Key) (n : Nat) (d : Byte) (i : BitVec 4) :
    readKey (k.setIfInBounds n d) i = if n = i.toNat then d else readKey k i := by
  simp [readKey, Vector.getElem_setIfInBounds]

/-- A position below 256 is the index it names. -/
theorem position_toNat (p : Nat) (h : p < 256) : (position p).toNat = p := by
  simp [position, Nat.mod_eq_of_lt h]

@[simp] theorem position_of_toNat (b : Byte) : position b.toNat = b := by
  simp [position]

theorem blockSize_bounds (k : Byte) : 2 ≤ blockSize k ∧ blockSize k ≤ 255 := by
  unfold blockSize
  split
  · omega
  · next h =>
    have h0 : k.toNat ≠ 0 := fun e => h (Or.inl (BitVec.eq_of_toNat_eq (by simpa using e)))
    have h1 : k.toNat ≠ 1 := fun e => h (Or.inr (BitVec.eq_of_toNat_eq (by simpa using e)))
    have := k.isLt
    omega

end Sys2Proof.Machine

namespace Sys2Proof.Safety

open Sys2Proof.Machine

theorem identityTables_mutualInverse : MutualInverse identityTables := by
  intro x
  simp [identityTables]

theorem tablesIdentity_mutualInverse (s : State) (h : TablesIdentity s) : MutualInverse s.tables := by
  intro x
  simp [State.tables, (h _).1, (h _).2]

end Sys2Proof.Safety
end

