-- ==== Sys2Proof/Laws/Ops.lean ====
section
/-! SUPPORT. One lemma per shared operation, saying once everything it can do. -/

namespace Sys2Proof.Machine

open Sys2Proof.Safety

theorem raiseFail_eq_next (e : Failure) (s t : State) : raiseFail e s = .next t ↔ t = s.failEntry e := by
  simp [raiseFail, eq_comm]

theorem discardWord_eq_next (s t : State) : discardWord s = .next t ↔ t = s.noPulse := by
  simp [discardWord, eq_comm]

/-- Failure entry leaves what R103 says. -/
theorem failEntry_failedWith (e : Failure) (s : State) : FailedWith e s (s.failEntry e) where
  key := fun i => by simp
  keyCount := rfl
  tables := fun x => by simp
  cursor := rfl
  dout := rfl
  doutValid := rfl
  pulse := rfl
  err := rfl
  fsm := rfl
  mode := rfl
  byteCount := rfl
  side := ⟨rfl, rfl, rfl, rfl⟩

/-- A discard leaves everything as it was, without a pulse. -/
theorem noPulse_noEffect (s : State) : NoEffect s s.noPulse :=
  ⟨⟨rfl, rfl, rfl, rfl, rfl, rfl, rfl, rfl, rfl, rfl, rfl⟩, ⟨rfl, rfl, rfl, rfl⟩, rfl⟩

/-- What an `Illegal` word does: one of two things. -/
theorem takeIllegal_cases (s : State) :
    (s.fsm = .failed ∧ takeIllegal s = .next s.noPulse) ∨
      (s.fsm ≠ .failed ∧ takeIllegal s = .next (s.failEntry .illegalCommand)) := by
  cases h : s.fsm <;> simp [takeIllegal, discardWord, raiseFail, h]

/-- A sequence that answers a next state ran both its parts. -/
theorem andThen_eq_next (r : Result) (f : State → Result) (t : State) :
    andThen r f = .next t ↔ ∃ s, r = .next s ∧ f s = .next t := by
  cases r <;> simp [andThen]

@[simp] theorem andThen_next (s : State) (f : State → Result) : andThen (.next s) f = f s := rfl

/-- A word runs its command, or is `Illegal`. -/
theorem runWord_cases (w : CmdWord) (s : State) :
    (∃ i, decode w = .ok i ∧ runWord w s = exec i s) ∨
      (∃ e, decode w = .error e ∧ runWord w s = takeIllegal s) := by
  cases h : decode w with
  | ok i => exact .inl ⟨i, rfl, by simp [runWord, h]⟩
  | error e => exact .inr ⟨e, rfl, by simp [runWord, h]⟩

/-- One rising edge: a reset, a refusal before the first reset, an edge of a busy period, or an edge of a ready block. -/
theorem clockEdge_cases (p : Pins) (s : State) :
    (p.rst = true ∧ clockEdge p s = .next (resetEdge s)) ∨
      (p.rst = false ∧ p.valid = true ∧ s.initialised = false ∧ clockEdge p s = .refused .commandBeforeReset) ∨
        (p.rst = false ∧ (p.valid = true → s.initialised = true) ∧
          ((∃ f, s.flight = some f ∧ clockEdge p s = busyEdge f s) ∨
            (s.flight = none ∧ clockEdge p s = .next (readyEdge p s)))) := by
  unfold clockEdge
  cases p.rst <;> cases p.valid <;> cases s.initialised <;> cases s.flight <;> simp

/-- A busy period's edge ends it or leaves one edge fewer. -/
theorem busyEdge_cases (f : Flight) (s : State) :
    (f.left ≤ 1 ∧ busyEdge f s = completeFlight f { s with draws := s.draws + 1 }) ∨
      (1 < f.left ∧ busyEdge f s = .next
        { s with flight := some ⟨f.job, f.left - 1⟩, rspValid := false, draws := s.draws + 1 }) := by
  by_cases h : f.left ≤ 1
  · exact .inl ⟨h, by simp [busyEdge, h]⟩
  · exact .inr ⟨by omega, by simp [busyEdge, h]⟩

/-- Every command has a next state, and none touches `BUSY` or the model's own fields. -/
theorem exec_next_side (i : Instr) (s : State) : ∃ t, exec i s = .next t ∧ SideKept s t := by
  have stay : ∀ t : State, t.flight = s.flight → t.initialised = s.initialised → t.inbox = s.inbox →
      t.draws = s.draws → SideKept s t := fun _ a b c d => ⟨a, b, c, d⟩
  have illegal : ∃ t, takeIllegal s = .next t ∧ SideKept s t := by
    rcases takeIllegal_cases s with ⟨_, h⟩ | ⟨_, h⟩ <;> exact ⟨_, h, stay _ rfl rfl rfl rfl⟩
  cases i with
  | nop => exact ⟨_, rfl, stay _ rfl rfl rfl rfl⟩
  | clear => exact ⟨_, rfl, stay _ rfl rfl rfl rfl⟩
  | peekFwd x => exact ⟨_, rfl, stay _ rfl rfl rfl rfl⟩
  | peekInv x => exact ⟨_, rfl, stay _ rfl rfl rfl rfl⟩
  | keyByte d => cases h : s.fsm <;> simp only [exec, execKeyByte, h] <;> exact ⟨_, rfl, stay _ rfl rfl rfl rfl⟩
  | start m => cases h : s.fsm <;> simp only [exec, execStart, h] <;> exact ⟨_, rfl, stay _ rfl rfl rfl rfl⟩
  | process b => cases h : s.fsm <;> simp only [exec, execProcess, h] <;> exact ⟨_, rfl, stay _ rfl rfl rfl rfl⟩
  | finish => cases h : s.fsm <;> simp only [exec, execFinish, h] <;> exact ⟨_, rfl, stay _ rfl rfl rfl rfl⟩
  | abort c =>
    cases h : s.fsm <;> simp only [exec, execAbort, h] <;> (try split) <;>
      first
      | exact illegal
      | exact ⟨_, rfl, stay _ rfl rfl rfl rfl⟩

/-- A word has a next state in every state, with `BUSY` and the model's own fields as before. -/
theorem runWord_next_side (w : CmdWord) (s : State) : ∃ t, runWord w s = .next t ∧ SideKept s t := by
  rcases runWord_cases w s with ⟨i, _, h⟩ | ⟨_, _, h⟩
  · rw [h]
    exact exec_next_side i s
  · rw [h]
    rcases takeIllegal_cases s with ⟨_, h'⟩ | ⟨_, h'⟩ <;> exact ⟨_, h', ⟨rfl, rfl, rfl, rfl⟩⟩

/-- A busy period ends with its word's results or with the reset values, and the block is ready. -/
theorem completeFlight_cases (f : Flight) (s : State) :
    (∃ w t, f.job = .command w ∧ completeFlight f s = runWord w { s with flight := none } ∧
        completeFlight f s = .next t ∧ t.flight = none ∧ t.initialised = s.initialised ∧ t.inbox = s.inbox) ∨
      (f.job = .resetInit ∧ completeFlight f s = .next s.resetRegisters) := by
  cases h : f.job with
  | command w =>
    obtain ⟨t, ht, hs⟩ := runWord_next_side w { s with flight := none }
    have hc : completeFlight f s = runWord w { s with flight := none } := by simp [completeFlight, h]
    exact .inl ⟨w, t, rfl, hc, hc.trans ht, hs.flight, hs.initialised, hs.inbox⟩
  | resetInit => exact .inr ⟨rfl, by simp [completeFlight, h]⟩

/-- Settling leaves a ready state as it is, and ends a busy period. -/
theorem settle_cases (s : State) :
    (s.flight = none ∧ settle s = .next s) ∨
      ∃ f, s.flight = some f ∧ settle s = completeFlight f { s with draws := s.draws + 1 } := by
  cases h : s.flight with
  | none => exact .inl ⟨rfl, by simp [settle, h]⟩
  | some f => exact .inr ⟨f, rfl, by simp [settle, h]⟩

/-- After the first reset a busy period ends in a ready block, and a ready block is left as it is. -/
theorem settle_next (s : State) (h : s.initialised = true) :
    ∃ r, settle s = .next r ∧ r.flight = none ∧ r.initialised = true ∧ r.inbox = s.inbox := by
  rcases settle_cases s with ⟨hf, hs⟩ | ⟨f, _, hs⟩
  · exact ⟨s, hs, hf, h, rfl⟩
  · rcases completeFlight_cases f { s with draws := s.draws + 1 } with ⟨w, t, _, _, ht, hf, hi, hb⟩ | ⟨_, ht⟩
    · exact ⟨t, hs.trans ht, hf, hi.trans h, hb⟩
    · exact ⟨_, hs.trans ht, rfl, rfl, rfl⟩

/-- A transaction is refused before the first reset completes, and else runs its word on the settled state. -/
theorem transact_cases (w : CmdWord) (s : State) :
    (s.initialised = false ∧ transact w s = .refused .commandBeforeReset) ∨
      ∃ r, s.initialised = true ∧ settle s = .next r ∧ r.flight = none ∧ r.initialised = true ∧ r.inbox = s.inbox ∧
        transact w s = runWord w r := by
  cases h : s.initialised with
  | false => exact .inl ⟨rfl, by simp [transact, h]⟩
  | true =>
    obtain ⟨r, hr, hf, hi, hb⟩ := settle_next s h
    exact .inr ⟨r, rfl, hr, hf, hi, hb, by simp [transact, h, hr]⟩

/-- A drawn latency is within its class's bound (R123). -/
theorem latencyOf_bounds (c : LatencyClass) (n : Nat) :
    1 ≤ latencyOf c n ∧ latencyOf c n ≤ Config.latencyBound c := by
  have h : Config.latencyDraw n % Config.latencyBound c < Config.latencyBound c :=
    Nat.mod_lt _ (Nat.succ_pos _)
  unfold latencyOf
  omega

end Sys2Proof.Machine
end

