-- ==== Sys2Proof/Laws/PerInstr.lean ====
section
/-! SUPPORT. A family of statements about every command as syntax, one lemma per constructor: the encoded word matches the
command's row of the opcode map (R62). -/

namespace Sys2Proof.Laws.EncodeMatchesRow

/-- The word of a well-formed command matches a row of the opcode map, and the row has the command's mnemonic. -/
def Statement (i : Instr) : Prop :=
  wellFormed i = true → ∃ r ∈ opcodeRows, r.mnemonic = mnemonic i ∧ matchesRow (encode i) r = true

theorem nop : Statement .nop := fun _ => ⟨⟨"NOP", 0x0000#16, 0xFFFF#16⟩, by decide⟩

theorem clear : Statement .clear := fun _ => ⟨⟨"CLEAR", 0x1000#16, 0xFFFF#16⟩, by decide⟩

theorem keyByte (d : Byte) : Statement (.keyByte d) := fun _ =>
  ⟨⟨"KEY_BYTE", 0x2000#16, 0xFF00#16⟩, by decide, rfl, by revert d; decide +kernel⟩

theorem start (m : Mode) : Statement (.start m) := fun _ =>
  ⟨⟨"START", 0x3000#16, 0xFEFF#16⟩, by decide, rfl, by cases m <;> decide⟩

theorem process (b : Byte) : Statement (.process b) := fun _ =>
  ⟨⟨"PROCESS", 0x4000#16, 0xFF00#16⟩, by decide, rfl, by revert b; decide +kernel⟩

theorem finish : Statement .finish := fun _ => ⟨⟨"FINISH", 0x5000#16, 0xFFFF#16⟩, by decide⟩

theorem abort (c : BitVec 4) : Statement (.abort c) := fun h =>
  ⟨⟨"ABORT", 0x6000#16, 0xF0FF#16⟩, by decide, rfl, by revert c; decide +kernel⟩

theorem peekFwd (i : Byte) : Statement (.peekFwd i) := fun _ =>
  ⟨⟨"PEEK_FWD", 0x7000#16, 0xFF00#16⟩, by decide, rfl, by revert i; decide +kernel⟩

theorem peekInv (i : Byte) : Statement (.peekInv i) := fun _ =>
  ⟨⟨"PEEK_INV", 0x8000#16, 0xFF00#16⟩, by decide, rfl, by revert i; decide +kernel⟩

end Sys2Proof.Laws.EncodeMatchesRow
end

