-- ==== Sys2Proof/Tests/Slice0.lean ====
section
/-! SUPPORT. Small tests. Expected results are those of 95_test_vectors.md, of the examples in the rules, and of R78's table;
the witnesses show states and operands that meet the hypotheses of the statements. -/

namespace Sys2Proof.Tests

open Sys2Proof Sys2Proof.Machine Sys2Proof.Safety

/-! ## Well-formedness and decoding (95_test_vectors.md §2.1) -/

theorem test_abort_zero_is_ill_formed : wellFormed (.abort 0#4) = false := by decide
theorem test_abort_six_is_ill_formed : wellFormed (.abort 6#4) = false := by decide
theorem test_abort_ends_are_well_formed : wellFormed (.abort 1#4) = true ∧ wellFormed (.abort 5#4) = true := by decide

theorem test_decode_nop : decode 0b0000000000000000#16 = .ok .nop := by decide
theorem test_decode_clear : decode 0b0001000000000000#16 = .ok .clear := by decide
theorem test_decode_keyByte : decode 0b0010000011111111#16 = .ok (.keyByte 0xFF#8) := by decide
theorem test_decode_start_enc : decode 0b0011000000000000#16 = .ok (.start .encrypt) := by decide
theorem test_decode_start_dec : decode 0b0011000100000000#16 = .ok (.start .decrypt) := by decide
theorem test_decode_process : decode 0b0100000001000001#16 = .ok (.process 0x41#8) := by decide
theorem test_decode_finish : decode 0b0101000000000000#16 = .ok .finish := by decide
theorem test_decode_abort : decode 0b0110010100000000#16 = .ok (.abort 5#4) := by decide
theorem test_decode_peekFwd : decode 0b0111000001011010#16 = .ok (.peekFwd 0x5A#8) := by decide
theorem test_decode_peekInv : decode 0b1000000010101011#16 = .ok (.peekInv 0xAB#8) := by decide

theorem test_decode_rejects_data : decode 0x0001#16 = .error .dataNotZero ∧ decode 0x1001#16 = .error .dataNotZero ∧
    decode 0x3001#16 = .error .dataNotZero ∧ decode 0x5001#16 = .error .dataNotZero ∧
    decode 0x6101#16 = .error .dataNotZero := by decide
theorem test_decode_rejects_arg : decode 0x0100#16 = .error .argNotZero ∧ decode 0x2100#16 = .error .argNotZero ∧
    decode 0x3200#16 = .error .argNotZero ∧ decode 0x4800#16 = .error .argNotZero ∧
    decode 0x7100#16 = .error .argNotZero ∧ decode 0x8100#16 = .error .argNotZero := by decide
theorem test_decode_rejects_abort_codes : decode 0x6000#16 = .error .abortCode ∧ decode 0x6600#16 = .error .abortCode ∧
    decode 0x6F00#16 = .error .abortCode := by decide
theorem test_decode_rejects_reserved : decode 0x9000#16 = .error .reservedOpcode ∧
    decode 0xF123#16 = .error .reservedOpcode ∧ decode 0xFFFF#16 = .error .reservedOpcode := by decide

theorem test_tableWord_decodes : decodeTableWord 16 0x4041 = some (.process 0x41#8) ∧ decodeTableWord 16 0x6000 = none := by
  decide

/-! ## The assembler (R66, R67) -/

theorem test_assemble_abort_by_name : assembleLine "ABORT ReadFailure ; host" = some [0x6200#16] := by decide
theorem test_assemble_start : assembleLine "START DEC" = some [0x3100#16] := by decide
theorem test_assemble_word : assembleLine ".word 0x9000" = some [0x9000#16] := by decide
theorem test_assemble_encrypt : assembleLine "ENCRYPT 0x48 101" = some [0x4048#16, 0x4065#16] := by decide
theorem test_assemble_rejects_short_key : assembleLine "LOADKEY 1 2 3" = none := by decide

/-! ## Single steps -/

/-- The block in a stream state, else as after reset. -/
def inState (f : Fsm) : State := { State.reset with fsm := f }

/-- A stream under way: 16 key bytes `k`. -/
def streamWith (m : Mode) (k : Byte) : State :=
  { State.reset with fsm := .streaming, mode := m, key := Vector.replicate 16 k, keyCount := 16#5 }

/-- `STATUS` after a step that takes one command word. -/
def statusAfter (w : CmdWord) (s : State) : Option StatusWord :=
  match step (s.offering (.command w)) with
  | .next t => some t.statusWord
  | .fault _ => none
  | .refused _ => none

/-- V4-3: `START` without a key. -/
theorem test_start_without_key : statusAfter 0x3000#16 State.reset = some 0x00600004#32 := by decide +kernel
/-- V4-2. -/
theorem test_start_dec : statusAfter 0x3100#16 { inState .keyLoaded with keyCount := 16#5 } = some 0x0000100A#32 := by
  decide +kernel
/-- V4-1: the 16th key byte. -/
theorem test_sixteenth_key_byte : statusAfter 0x200F#16 { State.reset with keyCount := 15#5 } = some 0x00001001#32 := by
  decide +kernel
/-- V4-5: the 17th key byte. -/
theorem test_seventeenth_key_byte :
    statusAfter 0x2010#16 { inState .keyLoaded with keyCount := 16#5 } = some 0x00600004#32 := by decide +kernel
/-- V4-8: `FINISH` in `IDLE`. -/
theorem test_finish_in_idle : statusAfter 0x5000#16 State.reset = some 0x00800004#32 := by decide +kernel
/-- P2's end, from the state before its `FINISH`. -/
theorem test_finish : statusAfter 0x5000#16 { streamWith .decrypt 2#8 with dout := 0x41#8, doutValid := true, cursor := 1#4 } =
    some 0x4100002B#32 := by decide +kernel
/-- R94's example. -/
theorem test_abort_read_failure : statusAfter 0x6200#16 (streamWith .encrypt 2#8) = some 0x00200004#32 := by decide +kernel
/-- V4-16: a malformed `START` gives 9, not 6. -/
theorem test_malformed_start_is_illegal : statusAfter 0x3001#16 State.reset = some 0x00900004#32 := by decide +kernel
/-- V4-19: an `Illegal` word is discarded in `FAILED`. -/
theorem test_illegal_is_discarded_in_failed :
    statusAfter 0x9000#16 { inState .failed with err := some .openFailed } = some 0x00100004#32 := by decide +kernel
/-- V4-20. -/
theorem test_clear_leaves_failed :
    statusAfter 0x1000#16 { inState .failed with err := some .openFailed } = some 0x00000000#32 := by decide +kernel
/-- P6: `PEEK_FWD` runs in `FAILED`. -/
theorem test_peekFwd_in_failed :
    statusAfter 0x7005#16 { inState .failed with err := some .keyNotLoaded } = some 0x05700024#32 := by decide +kernel
/-- `PEEK_INV` of the identity. -/
theorem test_peekInv_after_reset : statusAfter 0x804C#16 State.reset = some 0x4C000020#32 := by decide +kernel
/-- R89's example. -/
theorem test_nop_keeps_cursor :
    statusAfter 0x0000#16 { streamWith .encrypt 2#8 with cursor := 3#4 } =
      some (State.statusWord { streamWith .encrypt 2#8 with cursor := 3#4 }) := by decide +kernel

/-- R81's example: with key bytes 2, `PROCESS 0x41` gives 0x40. -/
theorem test_process_encrypt : statusAfter 0x4041#16 (streamWith .encrypt 2#8) = some 0x40011022#32 := by decide +kernel
/-- P2: the same round decrypts 0x40 to 0x41. -/
theorem test_process_decrypt : statusAfter 0x4040#16 (streamWith .decrypt 2#8) = some 0x4101102A#32 := by decide +kernel
/-- R78: `k = 0x07`, with a tail of four: `FWD[252]` is 0xFF. -/
theorem test_round_tail : readEntry (applyRound 7#8 identityTables).fwd 252#8 = 0xFF#8 := by decide +kernel
/-- R78: `k = 0x81`, one block and a tail of 127: `FWD[255]` is 0x81. -/
theorem test_round_long_tail : readEntry (applyRound 0x81#8 identityTables).fwd 0xFF#8 = 0x81#8 := by decide +kernel
/-! ## Witnesses: the hypotheses of the statements can be met -/

theorem witness_ResetEdges_below :
    (⟨true, true, 0x4041#16⟩ : Pins).rst = true ∧ (∀ q ∈ ([] : List Pins), q.rst = false) ∧
      (State.reset.initialised = true ∨ ∀ q ∈ ([] : List Pins), q.valid = false) ∧
        ([] : List Pins).length < Config.latReset := by simp [State.reset, Config.latReset]
theorem witness_ResetEdges_end :
    (∀ q ∈ List.replicate Config.latReset (⟨false, true, 0#16⟩ : Pins), q.rst = false) ∧
      (State.reset.initialised = true) ∧
        (List.replicate Config.latReset (⟨false, true, 0#16⟩ : Pins)).length = Config.latReset := by
  simp [State.reset]
theorem witness_ResetEdges_fromPowerUp :
    (State.powerUp []).initialised = false ∧
      ∀ q ∈ List.replicate Config.latReset Pins.quiet, q.rst = false ∧ q.valid = false := by
  simp [State.powerUp, Pins.quiet]
/-- At power-up, and in the initialisation after the first `rst`. -/
theorem witness_CommandBeforeReset : (State.powerUp []).initialised = false ∧
    (resetEdge (State.powerUp [])).initialised = false ∧
      (resetEdge (State.powerUp [])).flight = some ⟨.resetInit, Config.latReset⟩ := ⟨rfl, rfl, rfl⟩
theorem witness_NopIllegal : opField 0x0001#16 = 0#4 ∧ (0x0001#16 : CmdWord) ≠ 0x0000#16 := by decide
theorem witness_ClearIllegal : opField 0x1800#16 = 1#4 ∧ (0x1800#16 : CmdWord) ≠ 0x1000#16 := by decide
theorem witness_KeyByteIllegal : opField 0x2100#16 = 2#4 ∧ argField 0x2100#16 ≠ 0#4 := by decide
theorem witness_StartIllegal :
    opField 0x3200#16 = 3#4 ∧ (0x3200#16 : CmdWord) ≠ 0x3000#16 ∧ (0x3200#16 : CmdWord) ≠ 0x3100#16 := by decide
theorem witness_ProcessIllegal : opField 0x4800#16 = 4#4 ∧ argField 0x4800#16 ≠ 0#4 := by decide
theorem witness_FinishIllegal : opField 0x5001#16 = 5#4 ∧ (0x5001#16 : CmdWord) ≠ 0x5000#16 := by decide
theorem witness_AbortIllegal :
    (opField 0x6000#16 = 6#4 ∧ (argField 0x6000#16).toNat = 0) ∧ (opField 0x6600#16 = 6#4 ∧ 6 ≤ (argField 0x6600#16).toNat) ∧
      opField 0x6101#16 = 6#4 ∧ dataField 0x6101#16 ≠ 0#8 := by decide
theorem witness_PeekIllegal :
    (opField 0x7100#16 = 7#4 ∧ argField 0x7100#16 ≠ 0#4) ∧ opField 0x8F00#16 = 8#4 ∧ argField 0x8F00#16 ≠ 0#4 := by decide
theorem witness_KeyByteAppends_first : State.reset.fsm = .idle ∧ State.reset.keyCount.toNat < 16 := by decide
theorem witness_KeyByteAppends_last :
    ({ State.reset with keyCount := 15#5 } : State).fsm = .idle ∧
      ({ State.reset with keyCount := 15#5 } : State).keyCount.toNat < 16 := by decide
theorem witness_stream_states (f : Fsm) : (inState f).fsm = f := rfl
theorem witness_AbortCodes : (1 ≤ (1#4).toNat ∧ (1#4).toNat ≤ 5) ∧ 1 ≤ (5#4).toNat ∧ (5#4).toNat ≤ 5 := by decide
theorem witness_MutualInverse : MutualInverse identityTables ∧ MutualInverse State.reset.tables :=
  ⟨identityTables_mutualInverse, identityTables_mutualInverse⟩
theorem witness_Undecodable : (∀ i, decode 0x9000#16 ≠ .ok i) ∧ 9 ≤ (opField 0x9000#16).toNat :=
  ⟨fun i h => by simp [show decode 0x9000#16 = .error .reservedOpcode by decide] at h, by decide⟩
theorem witness_StateTable : wellFormed .nop = true ∧ wellFormed (.abort 5#4) = true ∧
    disposition (.abort 5#4) .idle = .fails .outputPathError ∧ disposition .finish .failed = .discarded := by decide
theorem witness_FailureEntry :
    runWord 0x5000#16 State.reset = .next (State.reset.failEntry .sequenceError) ∧ State.reset.fsm ≠ .failed ∧
      (State.reset.failEntry .sequenceError).fsm = .failed := ⟨rfl, by decide, rfl⟩
theorem witness_FailedIsLeft : (inState .failed).fsm = .failed ∧ decode 0x1000#16 = .ok .clear ∧
    decode 0x7005#16 = .ok (.peekFwd 5#8) ∧ decode 0x8005#16 = .ok (.peekInv 5#8) := by decide
theorem witness_FailedDiscards : decode 0x2001#16 ≠ .ok .clear ∧ (∀ i, decode 0x2001#16 ≠ .ok (.peekFwd i)) ∧
    ∀ i, decode 0x2001#16 ≠ .ok (.peekInv i) := by
  simp [show decode 0x2001#16 = .ok (.keyByte 1#8) by decide]
theorem witness_EncodeOfDecode : decode 0x4041#16 = .ok (.process 0x41#8) := by decide
theorem witness_StepRuns_ready :
    (State.reset.offering (.command 0x4041#16)).inbox = .command 0x4041#16 :: [] ∧
      decode 0x4041#16 = .ok (.process 0x41#8) ∧ (State.reset.offering (.command 0x4041#16)).flight = none ∧
        (State.reset.offering (.command 0x4041#16)).initialised = true := ⟨rfl, by decide, rfl, rfl⟩
theorem witness_StepRuns_illegal :
    (State.reset.offering (.command 0x9000#16)).inbox = .command 0x9000#16 :: [] ∧
      (State.reset.offering (.command 0x9000#16)).initialised = true ∧ ∀ i, decode 0x9000#16 ≠ .ok i :=
  ⟨rfl, rfl, fun i h => by simp [show decode 0x9000#16 = .error .reservedOpcode by decide] at h⟩

/-- A block that still runs a `NOP`, with a `CLEAR` to come. -/
def busyState : State := { State.reset with flight := some ⟨.command 0x0000#16, 3⟩, inbox := [.command 0x1000#16] }

theorem witness_StepRuns_busy :
    busyState.inbox = .command 0x1000#16 :: [] ∧ busyState.initialised = true ∧
      settle { busyState with inbox := [] } = .next { State.reset with draws := 1 } := ⟨rfl, rfl, rfl⟩
theorem witness_IdleEdge : State.reset.initialised = true ∧ State.reset.inbox = [] ∧ State.reset.flight = none :=
  ⟨rfl, rfl, rfl⟩
theorem witness_AfterReset : State.reset.initialised = true ∧ busyState.initialised = true := ⟨rfl, rfl⟩
theorem witness_Handshake : State.reset.flight = none ∧ State.reset.initialised = true ∧
    (∀ p ∈ ([] : List Pins), p.rst = false) ∧
      ([] : List Pins).length < latencyOf (latencyClassOf 0x4041#16 State.reset.fsm) State.reset.draws :=
  ⟨rfl, rfl, by simp, (latencyOf_bounds _ _).1⟩
theorem witness_Handshake_end (n : Nat) :
    (∀ p ∈ List.replicate n (⟨false, true, 0x1000#16⟩ : Pins), p.rst = false) ∧
      (List.replicate n (⟨false, true, 0x1000#16⟩ : Pins)).length = n := by simp
theorem witness_OfferWhileBusy : busyState.initialised = true ∧ busyState.busy = true ∧
    (⟨false, true, 0x1000#16⟩ : Pins).rst = false ∧ Pins.quiet.rst = false := ⟨rfl, rfl, rfl, rfl⟩
theorem witness_Status : State.reset.busy = false ∧ busyState.busy = true := ⟨rfl, rfl⟩

/-- A decrypt stream of no bytes after its `FINISH`. -/
def completedState : State := { State.reset with fsm := .completed, mode := .decrypt }

theorem completedState_registersInv : RegistersInv completedState where
  inverse := identityTables_mutualInverse
  failedIff := by decide
  noOutput := by decide
  erased := fun _ => ⟨fun i => by simp [completedState, State.reset], rfl⟩
  atRest := fun _ => ⟨fun x => by simp [completedState, State.reset], rfl⟩
  inStep := fun h => absurd h (by decide)
  fresh := fun h => absurd h (by decide)
  countIdle := fun h => absurd h (by decide)
  countFull := fun h => absurd h (by decide)
  pulseValid := by decide

theorem witness_PeekFwdAtRest : RegistersInv completedState ∧ completedState.fsm ≠ .streaming :=
  ⟨completedState_registersInv, by decide⟩
theorem witness_StepKeepsInvariant : StateInv completedState ∧ step completedState = .next completedState :=
  ⟨⟨fun _ => completedState_registersInv, fun f h => by simp [completedState, State.reset] at h,
    fun f h => by simp [completedState, State.reset] at h, fun h => absurd h (by decide)⟩, rfl⟩
theorem witness_Swap : (3#8 : Byte) ≠ 200#8 ∧ MutualInverse identityTables := ⟨by decide, identityTables_mutualInverse⟩
theorem witness_SwapsCommute (k : Byte) :
    MutualInverse identityTables ∧ (roundSwaps k).reverse.Perm (roundSwaps k) :=
  ⟨identityTables_mutualInverse, List.reverse_perm _⟩
theorem witness_exec_process : exec (.process 0x41#8) (streamWith .encrypt 2#8) =
    .next ((streamWith .encrypt 2#8).substitute 0x41#8) := rfl
theorem witness_exec_peek : exec (.peekFwd 5#8) State.reset = .next (State.reset.output (readEntry identityTable 5#8)) := rfl
theorem witness_KeyErased : exec .clear State.reset = .next State.reset ∧
    exec (.abort 1#4) (streamWith .encrypt 2#8) = .next ((streamWith .encrypt 2#8).failEntry .openFailed) := ⟨rfl, rfl⟩
theorem witness_LoadedKey : exec .nop (streamWith .encrypt 2#8) = .next (streamWith .encrypt 2#8) ∧
    (streamWith .encrypt 2#8).fsm = .streaming ∧ exec .nop (inState .keyLoaded) = .next (inState .keyLoaded) := ⟨rfl, rfl, rfl⟩
theorem witness_KeyNotReadOut : ¬ ((∃ b, Instr.clear = .process b) ∧ State.reset.fsm = .streaming) := by
  rintro ⟨⟨b, h⟩, _⟩
  cases h
theorem witness_Sessions : State.reset.fsm = .idle ∧ State.reset.keyCount = 0#5 ∧ ([] : List Byte).length < 16 ∧
    (List.replicate 15 (1#8 : Byte)).length < 16 ∧ 16 < (List.replicate 17 (1#8 : Byte)).length := by decide
theorem witness_Stream : (streamWith .decrypt 3#8).fsm = .streaming := rfl
theorem witness_EquivalentKeys (j : BitVec 4) :
    (readKey (Vector.replicate 16 2#8) j).toNat ≤ 2 ∧ (readKey State.reset.key j).toNat ≤ 2 := by
  simp [readKey, State.reset, zeroKey]

end Sys2Proof.Tests
end

