-- ==== Sys2Proof/Proofs/Scope.lean ====
section
/-! PROOFS. What a step does with the host's next event (00_scope.md §5): the rules of the step, of settling and of running
a word, and the statements about them. -/

namespace Sys2Proof.Machine

/-- A step takes the host's next event, with that event off the list. -/
theorem step_of_inbox_cons {s : State} {e : HostEvent} {rest : List HostEvent} (h : s.inbox = e :: rest) :
    step s = takeEvent e { s with inbox := rest } := by
  simp only [step, takeNextEvent, h]

@[simp] theorem takeEvent_command (w : CmdWord) (s : State) : takeEvent (.command w) s = transact w s := rfl

/-- A ready block has no busy period to wait for. -/
theorem settle_of_ready {s : State} (h : s.flight = none) : settle s = .next s := by
  rcases settle_cases s with ⟨_, hs⟩ | ⟨f, hf, _⟩
  · exact hs
  · simp [h] at hf

theorem transact_of_settle {w : CmdWord} {s r : State} (hi : s.initialised = true) (hr : settle s = .next r) :
    transact w s = runWord w r := by
  simp [transact, hi, hr]

theorem runWord_of_decode_ok {w : CmdWord} {i : Instr} (h : decode w = .ok i) (s : State) :
    runWord w s = exec i s := by
  simp [runWord, h]

/-- A word that decodes to no command is `Illegal` (R65). -/
theorem runWord_of_not_decoded {w : CmdWord} (h : ∀ i, decode w ≠ .ok i) (s : State) :
    runWord w s = takeIllegal s := by
  rcases runWord_cases w s with ⟨i, hi, _⟩ | ⟨_, _, hr⟩
  · exact absurd hi (h i)
  · exact hr

/-- Settles O23: the step is the word's transaction, which runs the word on the settled state. A ready block is its own
settled state. -/
theorem stepRunsTheDecodedCommand : Obligations.StepRunsTheDecodedCommand := by
  intro s w rest hbox hinit
  have hstep : step s = transact w { s with inbox := rest } := step_of_inbox_cons hbox
  refine ⟨fun hready => ?ready, ?busy,
    fun t => ⟨fun i hi => runWord_of_decode_ok hi t, fun h => runWord_of_not_decoded h t⟩⟩
  case ready => exact hstep.trans (transact_of_settle hinit (settle_of_ready hready))
  case busy =>
    obtain ⟨r, hr, hflight, hinit', hinbox⟩ := settle_next { s with inbox := rest } hinit
    exact ⟨r, hr, hflight, hinit', hinbox, hstep.trans (transact_of_settle hinit hr)⟩

end Sys2Proof.Machine
end

section
/-! PROOFS. The registers and what moves them (10_state.md): the value every register takes at reset, what each command
does to the registers, what the ports show of them, and the invariant of R22, R26 and R41. -/

namespace Sys2Proof.Machine

open Sys2Proof.Safety

/-! ## Reset -/

/-- The reset values of R40 stand in the registers after any reset. -/
theorem resetRegisters_registersReset (s : State) : RegistersReset s.resetRegisters where
  tables := fun x => by simp
  key := fun i => by simp
  keyCount := rfl
  cursor := rfl
  mode := rfl
  fsm := rfl
  err := rfl
  dout := rfl
  doutValid := rfl
  byteCount := rfl
  busy := rfl
  pulse := rfl

theorem reset_registersReset : RegistersReset State.reset := resetRegisters_registersReset State.reset

/-- A reset transaction abandons whatever is under way and writes the reset values (R118). -/
theorem step_offering_reset (s : State) :
    step (s.offering .reset) = .next ({ s with draws := s.draws + 1 } : State).resetRegisters := rfl

/-- Settles O1. -/
theorem resetStateMatchesTheResetTable : Obligations.ResetStateMatchesTheResetTable :=
  ⟨reset_registersReset, fun s => ⟨_, step_offering_reset s, resetRegisters_registersReset _, rfl, rfl⟩⟩

/-! ## Idle edges -/

/-- A host with nothing left to do lets the clock run. -/
theorem step_of_inbox_nil {s : State} (h : s.inbox = []) : step s = clockEdge Pins.quiet s := by
  simp [step, takeNextEvent, h]

theorem clockEdge_quiet_of_ready {s : State} (hi : s.initialised = true) (hf : s.flight = none) :
    clockEdge Pins.quiet s = .next s.noPulse := by
  simp [clockEdge, readyEdge, Pins.quiet, hi, hf]

/-- Settles O24: such a step is a quiet edge of a ready block, which only ends the pulse. -/
theorem idleEdgeChangesNothing : Obligations.IdleEdgeChangesNothing := fun s hi hbox hf =>
  ⟨s.noPulse, (step_of_inbox_nil hbox).trans (clockEdge_quiet_of_ready hi hf), noPulse_noEffect s⟩

/-! ## The ports -/

/-- The fields of a word laid out as R35 lays out `STATUS`. -/
theorem extractLsb'_statusLayout (dout : BitVec 8) (err cursor : BitVec 4) (keyCount : BitVec 5)
    (doutValid busy mode : BitVec 1) (fsm : BitVec 3) :
    let w := dout ++ err ++ cursor ++ 0#3 ++ keyCount ++ 0#2 ++ doutValid ++ busy ++ mode ++ fsm
    w.extractLsb' 0 3 = fsm ∧ w.extractLsb' 3 1 = mode ∧ w.extractLsb' 4 1 = busy ∧
      w.extractLsb' 5 1 = doutValid ∧ w.extractLsb' 6 2 = 0#2 ∧ w.extractLsb' 8 5 = keyCount ∧
      w.extractLsb' 13 3 = 0#3 ∧ w.extractLsb' 16 4 = cursor ∧ w.extractLsb' 20 4 = err ∧
      w.extractLsb' 24 8 = dout := by
  simp (disch := omega) only [BitVec.extractLsb'_append_eq_of_le, BitVec.extractLsb'_append_eq_of_add_le]
  simp

theorem outputs_of_ready {s : State} (hi : s.initialised = true) (hb : s.busy = false) :
    s.outputs false = readyOutputs s := by
  simp [State.outputs, hi, hb]

theorem outputs_of_busy {s : State} (hi : s.initialised = true) (hb : s.busy = true) :
    s.outputs false = busyOutputs s.draws := by
  simp [State.outputs, hi, hb]

theorem outputs_of_rst {s : State} (hi : s.initialised = true) : s.outputs true = resetOutputs s.draws := by
  simp [State.outputs, hi]

/-- Whatever the unspecified bits of `STATUS` are, `BUSY` reads 1. -/
theorem or_busyMask_busyBit (w : StatusWord) : (w ||| busyMask).extractLsb' 4 1 = 1#1 := by
  have mask : busyMask.extractLsb' 4 1 = BitVec.allOnes 1 := by decide
  rw [BitVec.extractLsb'_or, mask, BitVec.or_allOnes]
  rfl

/-- Settles O28, by which of the four sets of port values a cycle shows. -/
theorem statusShowsTheRegisters : Obligations.StatusShowsTheRegisters := by
  intro s hi
  refine ⟨fun hb => ?ready, fun hb => ?busy, ?rstReady, ?rstPulse, ?cmdReady⟩
  case ready =>
    obtain ⟨hfsm, hmode, hbusy, hvalid, hlow, hcount, hhigh, hcursor, herr, hdout⟩ :=
      extractLsb'_statusLayout s.dout (errCode s.err) s.cursor s.keyCount (.ofBool s.doutValid) (.ofBool s.busy)
        (modeBit s.mode) (fsmCode s.fsm)
    rw [outputs_of_ready hi hb]
    exact ⟨hfsm, hmode, hbusy.trans (by rw [hb]; rfl), hvalid, hlow, hcount, hhigh, hcursor, herr, hdout,
      rfl, rfl, rfl, rfl⟩
  case busy =>
    rw [outputs_of_busy hi hb]
    exact ⟨or_busyMask_busyBit _, rfl⟩
  case rstReady => rw [outputs_of_rst hi]; rfl
  case rstPulse => rw [outputs_of_rst hi]; rfl
  case cmdReady =>
    rintro (_ | _)
    · cases hb : s.busy
      · rw [outputs_of_ready hi hb]; rfl
      · rw [outputs_of_busy hi hb]; rfl
    · rw [outputs_of_rst hi]; simp [resetOutputs]

/-! ## What a command does to the registers -/

/-- What `CLEAR` leaves (R90). -/
@[simps] def State.cleared (s : State) : State :=
  { s with
    key := zeroKey, keyCount := 0#5
    fwd := identityTable, inv := identityTable
    cursor := 0#4, mode := .encrypt
    dout := 0#8, doutValid := false, rspValid := false
    byteCount := 0#32
    err := none
    fsm := .idle }

/-- What `START m` leaves of a loaded key (R92). -/
@[simps] def State.started (m : Mode) (s : State) : State :=
  { s with
    fwd := identityTable, inv := identityTable
    cursor := 0#4, mode := m
    byteCount := 0#32
    dout := 0#8, doutValid := false, rspValid := false
    fsm := .streaming }

/-- What `FINISH` leaves of a stream (R93). -/
@[simps] def State.finished (s : State) : State :=
  { s with
    key := zeroKey, keyCount := 0#5
    fwd := identityTable, inv := identityTable
    cursor := 0#4
    rspValid := false
    fsm := .completed }

/-- Everything a command can do: run by its own rule, where `disposition` (R102) has it run, be discarded or fail.
`exec_eq_next` ties it to `exec`. -/
inductive Effect : Instr → State → State → Prop
  | nop {s : State} : Effect .nop s s.noPulse
  | clear {s : State} : Effect .clear s s.cleared
  | append {s : State} (d : Byte) (idle : s.fsm = .idle) : Effect (.keyByte d) s (s.appendKeyByte d)
  | start {s : State} (m : Mode) (loaded : s.fsm = .keyLoaded) : Effect (.start m) s (s.started m)
  | process {s : State} (b : Byte) (streaming : s.fsm = .streaming) : Effect (.process b) s (s.substitute b)
  | finish {s : State} (streaming : s.fsm = .streaming) : Effect .finish s s.finished
  | peekFwd {s : State} (x : Byte) : Effect (.peekFwd x) s (s.output (readEntry s.fwd x))
  | peekInv {s : State} (x : Byte) : Effect (.peekInv x) s (s.output (readEntry s.inv x))
  | discard {i : Instr} {s : State} (discarded : disposition i s.fsm = .discarded) : Effect i s s.noPulse
  | fail {i : Instr} {s : State} (e : Failure) (fails : disposition i s.fsm = .fails e) : Effect i s (s.failEntry e)

theorem ne_failed_of_fails {i : Instr} {f : Fsm} {e : Failure} (h : disposition i f = .fails e) : f ≠ .failed := by
  rintro rfl
  cases i <;> cases h

/-- `ABORT` fails with the host's code, or as an `Illegal` word where no host may report the code (R94, R65). -/
theorem execAbort_of_ne_failed (c : BitVec 4) {s : State} (h : s.fsm ≠ .failed) :
    execAbort c s = raiseFail ((hostFailure c).getD .illegalCommand) s := by
  cases hc : hostFailure c <;> cases hf : s.fsm <;> simp_all [execAbort, takeIllegal]

theorem exec_of_fails {i : Instr} {s : State} {e : Failure} (h : disposition i s.fsm = .fails e) :
    exec i s = .next (s.failEntry e) := by
  have hne := ne_failed_of_fails h
  cases i with
  | nop | clear | peekFwd x | peekInv x => cases h
  | keyByte d => cases hf : s.fsm <;> simp_all [exec, execKeyByte, disposition, raiseFail]
  | start m => cases hf : s.fsm <;> simp_all [exec, execStart, disposition, raiseFail]
  | process b => cases hf : s.fsm <;> simp_all [exec, execProcess, disposition, raiseFail]
  | finish => cases hf : s.fsm <;> simp_all [exec, execFinish, disposition, raiseFail]
  | abort c =>
    have he : (hostFailure c).getD .illegalCommand = e := by cases hf : s.fsm <;> simp_all [disposition]
    exact (execAbort_of_ne_failed c hne).trans (by rw [he]; rfl)

/-- Words are discarded in `FAILED` and in no other state (R104). -/
theorem failed_of_discarded {i : Instr} {f : Fsm} (h : disposition i f = .discarded) : f = .failed := by
  cases f with
  | failed => rfl
  | idle | keyLoaded | streaming | completed => cases i <;> cases h

theorem exec_of_discarded {i : Instr} {s : State} (h : disposition i s.fsm = .discarded) :
    exec i s = .next s.noPulse := by
  have hf := failed_of_discarded h
  cases i with
  | nop | clear | peekFwd x | peekInv x => cases h
  | keyByte d => simp [exec, execKeyByte, discardWord, hf]
  | start m => simp [exec, execStart, discardWord, hf]
  | process b => simp [exec, execProcess, discardWord, hf]
  | finish => simp [exec, execFinish, discardWord, hf]
  | abort c => simp [exec, execAbort, discardWord, hf]

/-- `exec` answers what `Effect` says. -/
theorem exec_of_effect {i : Instr} {s t : State} (h : Effect i s t) : exec i s = .next t := by
  cases h with
  | nop | clear | peekFwd x | peekInv x => rfl
  | append d idle => simp [exec, execKeyByte, idle]
  | start m loaded => simp [exec, execStart, State.started, loaded]
  | process b streaming => simp [exec, execProcess, streaming]
  | finish streaming => simp [exec, execFinish, State.finished, streaming]
  | discard discarded => exact exec_of_discarded discarded
  | fail e fails => exact exec_of_fails fails

theorem keyByte_runs_iff {d : Byte} {f : Fsm} : disposition (.keyByte d) f = .runs ↔ f = .idle := by
  cases f <;> simp [disposition]

theorem start_runs_iff {m : Mode} {f : Fsm} : disposition (.start m) f = .runs ↔ f = .keyLoaded := by
  cases f <;> simp [disposition]

theorem process_runs_iff {b : Byte} {f : Fsm} : disposition (.process b) f = .runs ↔ f = .streaming := by
  cases f <;> simp [disposition]

theorem finish_runs_iff {f : Fsm} : disposition .finish f = .runs ↔ f = .streaming := by
  cases f <;> simp [disposition]

theorem abort_not_runs {c : BitVec 4} {f : Fsm} : disposition (.abort c) f ≠ .runs := by
  cases f <;> simp [disposition]

/-- Every command has an effect in every state. -/
theorem exists_effect (i : Instr) (s : State) : ∃ t, Effect i s t := by
  cases hd : disposition i s.fsm with
  | discarded => exact ⟨_, .discard hd⟩
  | fails e => exact ⟨_, .fail e hd⟩
  | runs =>
    cases i with
    | nop => exact ⟨_, .nop⟩
    | clear => exact ⟨_, .clear⟩
    | peekFwd x => exact ⟨_, .peekFwd x⟩
    | peekInv x => exact ⟨_, .peekInv x⟩
    | keyByte d => exact ⟨_, .append d (keyByte_runs_iff.mp hd)⟩
    | start m => exact ⟨_, .start m (start_runs_iff.mp hd)⟩
    | process b => exact ⟨_, .process b (process_runs_iff.mp hd)⟩
    | finish => exact ⟨_, .finish (finish_runs_iff.mp hd)⟩
    | abort c => exact absurd hd abort_not_runs

/-- What a command does, said once: the statements below go through its cases. -/
theorem exec_eq_next {i : Instr} {s t : State} : exec i s = .next t ↔ Effect i s t := by
  refine ⟨fun h => ?_, exec_of_effect⟩
  obtain ⟨u, hu⟩ := exists_effect i s
  have htu : t = u := by simpa [h] using exec_of_effect hu
  exact htu ▸ hu

/-! ## What commands keep -/

/-- Settles O39. A command that fails or is discarded is none of the three that move `BYTE_COUNT`. -/
theorem byteCountCountsProcess : Obligations.ByteCountCountsProcess := by
  refine ⟨fun i s t h => ?_, fun s => ⟨_, step_offering_reset s, rfl⟩⟩
  cases exec_eq_next.mp h with
  | nop | clear | append | finish | peekFwd | peekInv => rfl
  | start m loaded => simp [loaded]
  | process b streaming => simp [streaming]
  | discard discarded => split <;> simp_all [disposition]
  | fail e fails => split <;> simp_all [disposition]

/-- Settles O40. A command that fails or is discarded is neither of the two that set `MODE`. -/
theorem onlyStartAndClearSetTheMode : Obligations.OnlyStartAndClearSetTheMode := by
  intro i s t h
  cases exec_eq_next.mp h with
  | nop | clear | append | process | finish | peekFwd | peekInv => rfl
  | start m loaded => simp [loaded]
  | discard discarded => split <;> simp_all [disposition]
  | fail e fails => split <;> simp_all [disposition]

/-- A state whose two tables are both `identityTable` holds the identity mapping. -/
theorem tablesIdentity_of_eq {s : State} (hfwd : s.fwd = identityTable) (hinv : s.inv = identityTable) :
    TablesIdentity s := fun x => by simp [hfwd, hinv]

theorem keyZero_of_eq {s : State} (h : s.key = zeroKey) : KeyZero s := fun i => by simp [h]

/-- Settles O41. -/
theorem onlyProcessMutatesTheTables : Obligations.OnlyProcessMutatesTheTables := by
  refine ⟨fun i s t h => ?_, fun x s => ⟨⟨_, rfl, rfl⟩, ⟨_, rfl, rfl⟩⟩⟩
  cases exec_eq_next.mp h with
  | nop | append | peekFwd | peekInv | discard => exact .inl rfl
  | clear | start | finish | fail => exact .inr (.inl (tablesIdentity_of_eq rfl rfl))
  | process b streaming => exact .inr (.inr ⟨b, rfl, streaming, rfl⟩)

/-- The commands that give a result always run where they give it. -/
theorem runs_of_result {i : Instr} {f : Fsm}
    (h : (∃ b, i = .process b) ∧ f = .streaming ∨ (∃ x, i = .peekFwd x) ∨ ∃ x, i = .peekInv x) :
    disposition i f = .runs := by
  rcases h with ⟨⟨b, rfl⟩, rfl⟩ | ⟨x, rfl⟩ | ⟨x, rfl⟩ <;> rfl

/-- Settles O42: a pulse comes with `substitute` and `output` only, and `cleared`, `started` and failure entry are what
empties `DOUT`. -/
theorem resultStaysUntilOverwritten : Obligations.ResultStaysUntilOverwritten := by
  intro i s t h
  cases exec_eq_next.mp h with
  | nop => simp
  | clear => simp
  | append d idle => simp
  | start m loaded => simp [loaded]
  | process b streaming => simp [streaming]
  | finish streaming => simp
  | peekFwd x => simp
  | peekInv x => simp
  | discard discarded =>
    have noResult := mt runs_of_result (by simp [discarded] : disposition i s.fsm ≠ .runs)
    simp [noResult]
  | fail e fails =>
    have noResult := mt runs_of_result (by simp [fails] : disposition i s.fsm ≠ .runs)
    simp [noResult, ne_failed_of_fails fails]

/-- Settles O43: the other commands enter neither `COMPLETED` nor `FAILED`. -/
theorem keyIsErasedOnEveryExit : Obligations.KeyIsErasedOnEveryExit := by
  refine ⟨fun i s t h hexit => ?_, reset_registersReset.key, rfl, fun s =>
    ⟨_, step_offering_reset s, (resetRegisters_registersReset _).key, rfl⟩⟩
  cases exec_eq_next.mp h with
  | clear | finish | fail => exact ⟨keyZero_of_eq rfl, rfl⟩
  | nop | peekFwd x | peekInv x | process b streaming => simp at hexit
  | start m loaded => simp at hexit
  | append d idle => simp [idle] at hexit; split at hexit <;> simp at hexit
  | discard discarded =>
    have hi : i ≠ .clear := by rintro rfl; cases discarded
    simp [hi] at hexit

/-- Settles O44: only `KEY_BYTE` in `IDLE` writes a key byte. -/
theorem loadedKeyIsImmutable : Obligations.LoadedKeyIsImmutable := by
  intro i s t h hloaded
  cases exec_eq_next.mp h with
  | nop | start | process | peekFwd | peekInv | discard => exact .inl ⟨rfl, rfl⟩
  | clear | finish | fail => exact .inr ⟨keyZero_of_eq rfl, rfl⟩
  | append d idle => simp [idle] at hloaded

/-- Settles O45: each effect but that of `PROCESS` is the same effect from a state with another key, and the ports are
made of other registers and of `draws`. -/
theorem keyIsNotReadOut : Obligations.KeyIsNotReadOut := by
  refine ⟨fun i s k hno => ?_, fun s k rst => rfl⟩
  suffices ∃ t k', Effect i s t ∧ Effect i { s with key := k } { t with key := k' } by
    obtain ⟨t, k', ht, hk⟩ := this
    exact ⟨t, k', exec_of_effect ht, exec_of_effect hk⟩
  obtain ⟨t, ht⟩ := exists_effect i s
  refine ⟨t, ?_⟩
  cases ht with
  | nop => exact ⟨k, .nop, .nop⟩
  | clear => exact ⟨zeroKey, .clear, .clear⟩
  | append d idle => exact ⟨k.setIfInBounds s.keyCount.toNat d, .append d idle, .append d idle⟩
  | start m loaded => exact ⟨k, .start m loaded, .start m loaded⟩
  | process b streaming => exact absurd ⟨⟨b, rfl⟩, streaming⟩ hno
  | finish streaming => exact ⟨zeroKey, .finish streaming, .finish streaming⟩
  | peekFwd x => exact ⟨k, .peekFwd x, .peekFwd x⟩
  | peekInv x => exact ⟨k, .peekInv x, .peekInv x⟩
  | discard discarded => exact ⟨k, .discard discarded, .discard discarded⟩
  | fail e fails => exact ⟨zeroKey, .fail e fails, .fail e fails⟩

/-! ## The round keeps the tables mutual inverses (R76) -/

/-- The paired swap reads the forward table with the two positions exchanged (R69). -/
theorem readEntry_swapEntries_fwd (a b p : Byte) (t : Tables) :
    readEntry (swapEntries a b t).fwd p = readEntry t.fwd (Equiv.swap a b p) := by
  simp only [swapEntries, readEntry_writeEntry, Equiv.swap_apply_def]
  by_cases hb : b = p <;> by_cases ha : a = p <;> simp_all [eq_comm]

/-- The paired swap exchanges the same two positions in what the inverse table answers (R69). -/
theorem readEntry_swapEntries_inv (a b v : Byte) {t : Tables} (h : MutualInverse t) :
    readEntry (swapEntries a b t).inv v = Equiv.swap a b (readEntry t.inv v) := by
  have holds : ∀ p, readEntry t.fwd p = v ↔ readEntry t.inv v = p := fun p =>
    ⟨fun e => e ▸ (h p).1, fun e => e ▸ (h v).2⟩
  simp only [swapEntries, readEntry_writeEntry, Equiv.swap_apply_def, holds]
  by_cases hb : readEntry t.inv v = b <;> by_cases ha : readEntry t.inv v = a <;> simp_all

/-- Exchanging two positions twice changes nothing. -/
theorem swapEntries_mutualInverse (a b : Byte) {t : Tables} (h : MutualInverse t) :
    MutualInverse (swapEntries a b t) := by
  intro x
  constructor
  · rw [readEntry_swapEntries_inv _ _ _ h, readEntry_swapEntries_fwd, (h _).1, Equiv.swap_apply_self]
  · rw [readEntry_swapEntries_fwd, readEntry_swapEntries_inv _ _ _ h, Equiv.swap_apply_self, (h _).2]

theorem reverseSwaps_mutualInverse (o n m : Nat) {t : Tables} (h : MutualInverse t) :
    MutualInverse (reverseSwaps o n m t) := by
  induction m with
  | zero => exact h
  | succ m ih => exact swapEntries_mutualInverse _ _ ih

theorem reverseBlock_mutualInverse (o n : Nat) {t : Tables} (h : MutualInverse t) :
    MutualInverse (reverseBlock o n t) := reverseSwaps_mutualInverse o n (n / 2) h

theorem fullBlocks_mutualInverse (size passes offset : Nat) {t : Tables} (h : MutualInverse t) :
    MutualInverse (fullBlocks size passes offset t).2 := by
  induction passes generalizing offset t with
  | zero => exact h
  | succ passes ih =>
    unfold fullBlocks
    split
    · exact ih _ (reverseBlock_mutualInverse _ _ h)
    · exact h

theorem reverseTail_mutualInverse (offset : Nat) {t : Tables} (h : MutualInverse t) :
    MutualInverse (reverseTail offset t) := by
  unfold reverseTail
  split
  · exact reverseBlock_mutualInverse _ _ h
  · exact h

/-- A round is made of paired swaps, so it keeps R22. -/
theorem applyRound_mutualInverse (k : Byte) {t : Tables} (h : MutualInverse t) : MutualInverse (applyRound k t) :=
  reverseTail_mutualInverse _ (fullBlocks_mutualInverse _ _ _ h)

/-! ## Every command keeps the invariant of the registers -/

/-- The invariant of the registers looks neither at the busy period nor at the model's own fields, and a pulse may end. -/
theorem registersInv_of_side {s : State} (h : RegistersInv s) {flight : Option Flight} {rspValid initialised : Bool}
    {inbox : List HostEvent} {draws : Nat} (pulse : rspValid = true → s.rspValid = true) :
    RegistersInv { s with
      flight := flight, rspValid := rspValid, initialised := initialised, inbox := inbox, draws := draws } where
  inverse := h.inverse
  failedIff := h.failedIff
  noOutput := h.noOutput
  erased := h.erased
  atRest := h.atRest
  inStep := h.inStep
  fresh := h.fresh
  countIdle := h.countIdle
  countFull := h.countFull
  pulseValid := fun hp => h.pulseValid (pulse hp)

/-- With the identity in the tables and no key, in a stream state that needs neither, what is left to ask is what `ERR`,
`DOUT`, `MODE` and `BYTE_COUNT` hold. -/
theorem registersInv_of_erased {t : State} (tables : TablesIdentity t) (cursor : t.cursor = 0#4) (key : KeyZero t)
    (keyCount : t.keyCount = 0#5) (fsm : t.fsm = .idle ∨ t.fsm = .completed ∨ t.fsm = .failed)
    (failedIff : t.fsm = .failed ↔ t.err ≠ none) (noOutput : t.doutValid = false → t.dout = 0#8)
    (fresh : t.fsm = .idle → t.mode = .encrypt ∧ t.byteCount = 0#32)
    (pulseValid : t.rspValid = true → t.doutValid = true) : RegistersInv t where
  inverse := tablesIdentity_mutualInverse t tables
  failedIff := failedIff
  noOutput := noOutput
  erased := fun _ => ⟨key, keyCount⟩
  atRest := fun _ => ⟨tables, cursor⟩
  inStep := fun hs => by simp [hs] at fsm
  fresh := by
    rintro (hi | hl)
    · exact fresh hi
    · simp [hl] at fsm
  countIdle := fun _ => by simp [keyCount]
  countFull := by rintro (hf | hf) <;> simp [hf] at fsm
  pulseValid := pulseValid

/-- While the key is being loaded and until the stream starts, everything else is at rest. -/
theorem registersInv_of_loading {t : State} (tables : TablesIdentity t) (cursor : t.cursor = 0#4)
    (loading : t.fsm = .idle ∧ t.keyCount.toNat < 16 ∨ t.fsm = .keyLoaded ∧ t.keyCount.toNat = 16)
    (err : t.err = none) (noOutput : t.doutValid = false → t.dout = 0#8)
    (fresh : t.mode = .encrypt ∧ t.byteCount = 0#32) (pulseValid : t.rspValid = true → t.doutValid = true) :
    RegistersInv t where
  inverse := tablesIdentity_mutualInverse t tables
  failedIff := by rcases loading with ⟨hf, _⟩ | ⟨hf, _⟩ <;> simp [hf, err]
  noOutput := noOutput
  erased := by rcases loading with ⟨hf, _⟩ | ⟨hf, _⟩ <;> simp [hf]
  atRest := fun _ => ⟨tables, cursor⟩
  inStep := by rcases loading with ⟨hf, _⟩ | ⟨hf, _⟩ <;> simp [hf]
  fresh := fun _ => fresh
  countIdle := by rcases loading with ⟨hf, hc⟩ | ⟨hf, _⟩ <;> simp [*]
  countFull := by rcases loading with ⟨hf, _⟩ | ⟨hf, hc⟩ <;> simp [*]
  pulseValid := pulseValid

theorem registersInv_of_reset {t : State} (h : RegistersReset t) : RegistersInv t :=
  registersInv_of_erased h.tables h.cursor h.key h.keyCount (.inl h.fsm) (by simp [h.fsm, h.err]) (fun _ => h.dout)
    (fun _ => ⟨h.mode, h.byteCount⟩) (by simp [h.pulse])

theorem cleared_registersInv (s : State) : RegistersInv s.cleared :=
  registersInv_of_erased (tablesIdentity_of_eq rfl rfl) rfl (keyZero_of_eq rfl) rfl (.inl rfl) (by simp) (fun _ => rfl)
    (fun _ => ⟨rfl, rfl⟩) (by simp)

theorem failEntry_registersInv (e : Failure) (s : State) : RegistersInv (s.failEntry e) :=
  registersInv_of_erased (tablesIdentity_of_eq rfl rfl) rfl (keyZero_of_eq rfl) rfl (.inr (.inr rfl)) (by simp)
    (fun _ => rfl) (by simp) (by simp)

/-- `ERR` is none in every stream state but `FAILED` (R41.2). -/
theorem err_eq_none {s : State} (h : RegistersInv s) (hf : s.fsm ≠ .failed) : s.err = none :=
  not_not.mp fun he => hf (h.failedIff.mpr he)

theorem finished_registersInv {s : State} (h : RegistersInv s) (streaming : s.fsm = .streaming) :
    RegistersInv s.finished :=
  registersInv_of_erased (tablesIdentity_of_eq rfl rfl) rfl (keyZero_of_eq rfl) rfl (.inr (.inl rfl))
    (by simp [err_eq_none h, streaming]) h.noOutput (by simp) (by simp)

theorem started_registersInv (m : Mode) {s : State} (h : RegistersInv s) (loaded : s.fsm = .keyLoaded) :
    RegistersInv (s.started m) where
  inverse := tablesIdentity_mutualInverse _ (tablesIdentity_of_eq rfl rfl)
  failedIff := by simp [err_eq_none h, loaded]
  noOutput := fun _ => rfl
  erased := by simp
  atRest := by simp
  inStep := fun _ => rfl
  fresh := by simp
  countIdle := by simp
  countFull := fun _ => h.countFull (.inl loaded)
  pulseValid := by simp

/-- `CURSOR` and `BYTE_COUNT` step together: 16 divides 2^32, so both may wrap. -/
theorem substitute_registersInv (b : Byte) {s : State} (h : RegistersInv s) (streaming : s.fsm = .streaming) :
    RegistersInv (s.substitute b) where
  inverse := applyRound_mutualInverse _ h.inverse
  failedIff := h.failedIff
  noOutput := by simp
  erased := by simp [streaming]
  atRest := by simp [streaming]
  inStep := fun _ => by
    have together := h.inStep streaming
    simp [BitVec.toNat_add]
    omega
  fresh := by simp [streaming]
  countIdle := by simp [streaming]
  countFull := h.countFull
  pulseValid := by simp

theorem output_registersInv (r : Byte) {s : State} (h : RegistersInv s) : RegistersInv (s.output r) where
  inverse := h.inverse
  failedIff := h.failedIff
  noOutput := by simp
  erased := h.erased
  atRest := h.atRest
  inStep := h.inStep
  fresh := h.fresh
  countIdle := h.countIdle
  countFull := h.countFull
  pulseValid := by simp

/-- The next key byte is the 16th, or the block stays in `IDLE` (R91). -/
theorem appendKeyByte_fsm_cases (d : Byte) {s : State} (idle : s.fsm = .idle) (hlt : s.keyCount.toNat < 16) :
    (s.appendKeyByte d).fsm = .idle ∧ (s.appendKeyByte d).keyCount.toNat < 16 ∨
      (s.appendKeyByte d).fsm = .keyLoaded ∧ (s.appendKeyByte d).keyCount.toNat = 16 := by
  have hcount : (s.keyCount + 1#5).toNat = s.keyCount.toNat + 1 := by
    simp [BitVec.toNat_add]
    omega
  by_cases hfull : s.keyCount + 1#5 = 16#5
  · exact .inr ⟨by simp [hfull], by simp [hfull]⟩
  · have hne : (s.keyCount + 1#5).toNat ≠ 16 := fun e => hfull (BitVec.eq_of_toNat_eq e)
    exact .inl ⟨by simp [hfull, idle], by simp only [State.appendKeyByte_keyCount]; omega⟩

theorem appendKeyByte_registersInv (d : Byte) {s : State} (h : RegistersInv s) (idle : s.fsm = .idle) :
    RegistersInv (s.appendKeyByte d) := by
  obtain ⟨tables, cursor⟩ := h.atRest (by simp [idle])
  have err : s.err = none := err_eq_none h (by simp [idle])
  exact registersInv_of_loading (t := s.appendKeyByte d) tables cursor
    (appendKeyByte_fsm_cases d idle (h.countIdle idle)) err h.noOutput
    (h.fresh (.inl idle)) (by simp)

theorem noPulse_registersInv {s : State} (h : RegistersInv s) : RegistersInv s.noPulse :=
  registersInv_of_side h (by simp)

/-- R22, R26 and R41 at every command: each effect keeps the invariant of the registers. -/
theorem exec_keeps_registersInv {i : Instr} {s t : State} (h : RegistersInv s) (he : exec i s = .next t) :
    RegistersInv t := by
  cases exec_eq_next.mp he with
  | nop | discard => exact noPulse_registersInv h
  | clear => exact cleared_registersInv s
  | append d idle => exact appendKeyByte_registersInv d h idle
  | start m loaded => exact started_registersInv m h loaded
  | process b streaming => exact substitute_registersInv b h streaming
  | finish streaming => exact finished_registersInv h streaming
  | peekFwd x | peekInv x => exact output_registersInv _ h
  | fail e fails => exact failEntry_registersInv e s

theorem takeIllegal_keeps_registersInv {s t : State} (h : RegistersInv s) (ht : takeIllegal s = .next t) :
    RegistersInv t := by
  rcases takeIllegal_cases s with ⟨_, hs⟩ | ⟨_, hs⟩ <;> rw [hs] at ht <;> cases ht
  · exact noPulse_registersInv h
  · exact failEntry_registersInv _ s

theorem runWord_keeps_registersInv {w : CmdWord} {s t : State} (h : RegistersInv s) (ht : runWord w s = .next t) :
    RegistersInv t := by
  rcases runWord_cases w s with ⟨i, _, hr⟩ | ⟨e, _, hr⟩
  · exact exec_keeps_registersInv h (hr ▸ ht)
  · exact takeIllegal_keeps_registersInv h (hr ▸ ht)

/-! ## Every step keeps the invariant of the state -/

theorem stateInv_of_ready {t : State} (ready : t.flight = none) (registers : t.initialised = true → RegistersInv t) :
    StateInv t where
  registers := registers
  left := by simp [ready]
  quiet := by simp [ready]
  beforeReset := by simp [ready]

theorem stateInv_of_busy {t : State} {f : Flight} (busy : t.flight = some f)
    (registers : t.initialised = true → RegistersInv t) (left : 1 ≤ f.left) (quiet : t.rspValid = false)
    (beforeReset : t.initialised = false → f.job = .resetInit ∨ f.job = .command Config.powerUpWord) :
    StateInv t where
  registers := registers
  left := by simp [busy, left]
  quiet := fun _ _ _ => quiet
  beforeReset := fun hi => by simpa [busy] using beforeReset hi

theorem resetRegisters_stateInv (s : State) : StateInv s.resetRegisters :=
  stateInv_of_ready rfl fun _ => registersInv_of_reset (resetRegisters_registersReset s)

/-- A block busy at power-up works at the free word, for the free number of edges (log entry 21). -/
theorem flight_of_powerUp {l : List HostEvent} {f : Flight} (h : (State.powerUp l).flight = some f) :
    f = ⟨.command Config.powerUpWord, Config.powerUpLeft + 1⟩ := by
  simp only [State.powerUp] at h
  split at h
  · exact (Option.some.inj h).symm
  · cases h

/-- Settles O29. At power-up no reset has completed, so no clause on the registers is due. -/
theorem resetAndPowerUpMeetTheInvariant : Obligations.ResetAndPowerUpMeetTheInvariant := by
  refine ⟨resetRegisters_stateInv State.reset, fun l => ?_⟩
  exact
    { registers := fun h => by cases h
      left := fun f hf => by simp [flight_of_powerUp hf]
      quiet := fun f hf hor => by
        rcases hor with hi | hj
        · cases hi
        · simp [flight_of_powerUp hf] at hj
      beforeReset := fun _ f hf => .inr (by rw [flight_of_powerUp hf]) }

/-- What the host will do is no part of the invariant. -/
theorem stateInv_inbox {s : State} (h : StateInv s) (l : List HostEvent) : StateInv { s with inbox := l } where
  registers := fun hi => registersInv_of_side (h.registers hi) id
  left := h.left
  quiet := h.quiet
  beforeReset := h.beforeReset

theorem runWord_keeps_stateInv {w : CmdWord} {s t : State} (ht : runWord w s = .next t) (ready : s.flight = none)
    (registers : s.initialised = true → RegistersInv s) : StateInv t := by
  obtain ⟨u, hu, side⟩ := runWord_next_side w s
  have htu : t = u := by simpa [ht] using hu
  subst htu
  exact stateInv_of_ready (side.flight.trans ready) fun hi =>
    runWord_keeps_registersInv (registers (side.initialised ▸ hi)) ht

/-- A busy period ends in a state that meets the invariant, whatever it worked at. -/
theorem completeFlight_keeps_stateInv {f : Flight} {s t : State} (ht : completeFlight f s = .next t)
    (registers : s.initialised = true → RegistersInv s) : StateInv t := by
  rcases completeFlight_cases f s with ⟨w, _, _, hc, _⟩ | ⟨_, hc⟩
  · exact runWord_keeps_stateInv (hc.symm.trans ht) rfl fun hi => registersInv_of_side (registers hi) id
  · rw [hc] at ht
    cases ht
    exact resetRegisters_stateInv s

theorem resetEdge_keeps_stateInv {s : State} (h : StateInv s) : StateInv (resetEdge s) :=
  stateInv_of_busy (f := ⟨.resetInit, Config.latReset⟩) rfl (fun hi => registersInv_of_side (h.registers hi) (by simp))
    (Nat.succ_pos _) rfl (fun _ => .inl rfl)

/-- A latency is at least 1 (R123), so an accepted word has an edge to go. -/
theorem acceptWord_keeps_stateInv (w : CmdWord) {s : State} (h : StateInv s) (hi : s.initialised = true) :
    StateInv (acceptWord w s) :=
  stateInv_of_busy (State.acceptWord_flight w s)
    (fun _ => registersInv_of_side (h.registers hi) (by simp))
    (latencyOf_bounds _ _).1 rfl (by simp [hi])

theorem readyEdge_keeps_stateInv {p : Pins} {s : State} (h : StateInv s) (ready : s.flight = none)
    (accepts : p.valid = true → s.initialised = true) : StateInv (readyEdge p s) := by
  unfold readyEdge
  split
  · next hv => exact acceptWord_keeps_stateInv p.word h (accepts hv)
  · split
    · exact stateInv_of_ready ready fun hi => noPulse_registersInv (h.registers hi)
    · next hi => exact stateInv_of_ready ready fun hi' => absurd hi' hi

theorem busyEdge_keeps_stateInv {f : Flight} {s t : State} (h : StateInv s) (busy : s.flight = some f)
    (ht : busyEdge f s = .next t) : StateInv t := by
  rcases busyEdge_cases f s with ⟨_, hb⟩ | ⟨hleft, hb⟩ <;> rw [hb] at ht
  · exact completeFlight_keeps_stateInv ht fun hi => registersInv_of_side (h.registers hi) id
  · cases ht
    have left : 1 ≤ f.left - 1 := by omega
    exact stateInv_of_busy rfl (fun hi => registersInv_of_side (h.registers hi) (by simp)) left rfl
      fun hi => h.beforeReset hi f busy

theorem clockEdge_keeps_stateInv {p : Pins} {s t : State} (h : StateInv s) (ht : clockEdge p s = .next t) :
    StateInv t := by
  rcases clockEdge_cases p s with ⟨_, hc⟩ | ⟨_, _, _, hc⟩ | ⟨_, accepts, ⟨f, busy, hc⟩ | ⟨ready, hc⟩⟩ <;> rw [hc] at ht
  · cases ht
    exact resetEdge_keeps_stateInv h
  · cases ht
  · exact busyEdge_keeps_stateInv h busy ht
  · cases ht
    exact readyEdge_keeps_stateInv h ready accepts

theorem settle_keeps_stateInv {s t : State} (h : StateInv s) (ht : settle s = .next t) : StateInv t := by
  rcases settle_cases s with ⟨_, hs⟩ | ⟨f, _, hs⟩ <;> rw [hs] at ht
  · cases ht
    exact h
  · exact completeFlight_keeps_stateInv ht fun hi => registersInv_of_side (h.registers hi) id

theorem transact_keeps_stateInv {w : CmdWord} {s t : State} (h : StateInv s) (ht : transact w s = .next t) :
    StateInv t := by
  rcases transact_cases w s with ⟨_, hr⟩ | ⟨r, _, hsettle, ready, _, _, hr⟩ <;> rw [hr] at ht
  · cases ht
  · exact runWord_keeps_stateInv ht ready (settle_keeps_stateInv h hsettle).registers

theorem takeEvent_keeps_stateInv {e : HostEvent} {s t : State} (h : StateInv s) (ht : takeEvent e s = .next t) :
    StateInv t := by
  cases e with
  | command w => exact transact_keeps_stateInv h ht
  | reset =>
    cases ht
    exact resetRegisters_stateInv _
  | edge p => exact clockEdge_keeps_stateInv h ht

/-- Settles O30, by what the host does next: nothing, or the first event of its list. -/
theorem stepKeepsTheInvariant : Obligations.StepKeepsTheInvariant := by
  intro s t h ht
  cases hbox : s.inbox with
  | nil => exact clockEdge_keeps_stateInv h (step_of_inbox_nil hbox ▸ ht)
  | cons e rest => exact takeEvent_keeps_stateInv (stateInv_inbox h rest) (step_of_inbox_cons hbox ▸ ht)

end Sys2Proof.Machine
end

section
/-! PROOFS. The memories of the block (20_memory.md): how a run of commands splits, and what the key bytes of a run leave
in the key memory (R45, R91). -/

namespace Sys2Proof.Machine

open Sys2Proof.Safety

/-! ## Runs of commands -/

theorem runCommands_cons_of_next {i : Instr} {s t : State} (h : exec i s = .next t) (is : List Instr) :
    runCommands (i :: is) s =
      (runCommands is t).map fun r => ((if t.rspValid then [t.dout] else []) ++ r.1, r.2) := by
  simp only [runCommands, h]
  cases runCommands is t with
  | none => rfl
  | some r => cases t.rspValid <;> rfl

/-- A run is its first part, then the rest from the state the first part left, with the output bytes in that order. -/
theorem runCommands_append (is js : List Instr) (s : State) :
    runCommands (is ++ js) s =
      (runCommands is s).bind fun r => (runCommands js r.2).map fun u => (r.1 ++ u.1, u.2) := by
  induction is generalizing s with
  | nil => simp [runCommands]
  | cons i is ih =>
    obtain ⟨t, effect⟩ := exists_effect i s
    have hexec : exec i s = .next t := exec_of_effect effect
    rw [List.cons_append, runCommands_cons_of_next hexec, runCommands_cons_of_next hexec, ih]
    cases runCommands is t with
    | none => rfl
    | some r => simp [Function.comp_def]

/-- After commands without output the run goes on as if it began there. -/
theorem runCommands_append_of_silent {is : List Instr} {s t : State} (h : runCommands is s = some ([], t))
    (js : List Instr) : runCommands (is ++ js) s = runCommands js t := by
  simp [runCommands_append, h]

/-- In `IDLE` a key byte runs without output (R91, R32). -/
theorem runCommands_keyByte (d : Byte) {s : State} (idle : s.fsm = .idle) :
    runCommands [.keyByte d] s = some ([], s.appendKeyByte d) := by
  have hexec : exec (.keyByte d) s = .next (s.appendKeyByte d) := exec_of_effect (.append d idle)
  rw [runCommands_cons_of_next hexec]
  rfl

/-! ## Loading the key -/

/-- What the key bytes `ds`, sent from the state `s` with no key byte yet, leave in the state `t`: they stand in `KEY` in
their order (R45), and only the registers that R91 writes have changed. -/
structure KeyBytesLoaded (s : State) (ds : List Byte) (t : State) : Prop where
  key : ∀ i, readKey t.key i = ds[i.toNat]?.getD (readKey s.key i)
  count : t.keyCount.toNat = ds.length
  fsm : t.fsm = if ds.length = 16 then .keyLoaded else .idle
  frame : t = { s with key := t.key, keyCount := t.keyCount, fsm := t.fsm, rspValid := t.rspValid }

theorem keyBytesLoaded_nil {s : State} (idle : s.fsm = .idle) (empty : s.keyCount = 0#5) : KeyBytesLoaded s [] s where
  key := fun i => by simp
  count := by simp [empty]
  fsm := by simp [idle]
  frame := rfl

/-- Before the 16th byte the block is still in `IDLE`. -/
theorem KeyBytesLoaded.idle {s t : State} {ds : List Byte} (h : KeyBytesLoaded s ds t) (hlt : ds.length < 16) :
    t.fsm = .idle := by
  rw [h.fsm, if_neg hlt.ne]

/-- The next key byte goes to the slot after the last one (R45). -/
theorem KeyBytesLoaded.append {s t : State} {ds : List Byte} (h : KeyBytesLoaded s ds t) (hlt : ds.length < 16)
    (d : Byte) : KeyBytesLoaded s (ds ++ [d]) (t.appendKeyByte d) := by
  have hcount : t.keyCount.toNat = ds.length := h.count
  have hnext : (t.appendKeyByte d).keyCount.toNat = ds.length + 1 := by
    simp [BitVec.toNat_add]
    omega
  exact
    { key := fun i => by
        rw [State.appendKeyByte_key, readKey_setIfInBounds, h.key, hcount]
        rcases Nat.lt_trichotomy i.toNat ds.length with hi | hi | hi
        · simp [List.getElem?_append_left hi, hi.ne']
        · simp [hi]
        · simp [hi.ne, List.getElem?_append_right hi.le, show ds.length ≤ i.toNat from hi.le,
            show i.toNat - ds.length ≠ 0 by omega]
      count := by simpa using hnext
      fsm := by
        rcases appendKeyByte_fsm_cases d (h.idle hlt) (hcount ▸ hlt) with ⟨hfsm, hc⟩ | ⟨hfsm, hc⟩
        · have hne : (ds ++ [d]).length ≠ 16 := by simp; omega
          rw [hfsm, if_neg hne]
        · have heq : (ds ++ [d]).length = 16 := by simp; omega
          rw [hfsm, if_pos heq]
      frame := by
        conv_lhs => rw [h.frame]
        rfl }

/-- Up to 16 key bytes run without output and load in their order, by induction on their number. -/
theorem runCommands_keyBytes {s : State} (idle : s.fsm = .idle) (empty : s.keyCount = 0#5) (ds : List Byte)
    (hle : ds.length ≤ 16) : ∃ t, runCommands (ds.map .keyByte) s = some ([], t) ∧ KeyBytesLoaded s ds t := by
  induction ds using List.reverseRecOn with
  | nil => exact ⟨s, rfl, keyBytesLoaded_nil idle empty⟩
  | append_singleton ds d ih =>
    have hlt : ds.length < 16 := by
      rw [List.length_append, List.length_singleton] at hle
      omega
    obtain ⟨t, hrun, loaded⟩ := ih hlt.le
    refine ⟨t.appendKeyByte d, ?_, loaded.append hlt d⟩
    calc runCommands ((ds ++ [d]).map .keyByte) s
      _ = runCommands (ds.map .keyByte ++ [.keyByte d]) s := by rw [List.map_append]; rfl
      _ = runCommands [.keyByte d] t := runCommands_append_of_silent hrun _
      _ = some ([], t.appendKeyByte d) := runCommands_keyByte d (loaded.idle hlt)

/-- All 16 bytes of a key in their order are the key (R45). -/
theorem KeyBytesLoaded.key_eq {s t : State} {k : Key} (h : KeyBytesLoaded s k.toList t) : t.key = k :=
  key_ext _ _ fun i => by
    have hbyte : k.toList[i.toNat]? = some (readKey k i) := by simp [readKey]
    rw [h.key, hbyte, Option.getD_some]

/-- Settles O47: the bytes of a key are 16 bytes, loaded in their order; the other registers are as the frame says. -/
theorem sixteenKeyBytesLoadTheKey : Obligations.SixteenKeyBytesLoadTheKey := by
  intro k s idle empty
  have hlen : k.toList.length = 16 := Vector.length_toList
  obtain ⟨t, hrun, loaded⟩ := runCommands_keyBytes idle empty k.toList hlen.le
  have hcount : t.keyCount = 16#5 := BitVec.eq_of_toNat_eq (loaded.count.trans hlen)
  have hfsm : t.fsm = .keyLoaded := by rw [loaded.fsm, if_pos hlen]
  refine ⟨t, hrun, loaded.key_eq, hcount, hfsm, ?_, ?_, ?_, ?_, ?_, ?_, ?_, ?_⟩
  all_goals rw [loaded.frame]

end Sys2Proof.Machine
end

section
/-! PROOFS. The command encoding (30_encoding.md): the fields of a word, the decoder as the inverse of the encoder and
its agreement with the opcode map, the words that decode to no command, and that every step after the first reset has a
next state. -/

namespace Sys2Proof.Machine

open Sys2Proof.Safety

/-! ## The fields of a word (R59) -/

@[simp] theorem opField_packWord (op arg : BitVec 4) (data : Byte) : opField (packWord op arg data) = op := by
  unfold opField packWord
  rw [BitVec.extractLsb'_append_eq_of_le (by omega), BitVec.extractLsb'_append_eq_of_le (by omega)]
  exact BitVec.extractLsb'_eq_self

@[simp] theorem argField_packWord (op arg : BitVec 4) (data : Byte) : argField (packWord op arg data) = arg := by
  unfold argField packWord
  rw [BitVec.extractLsb'_append_eq_of_le (by omega), BitVec.extractLsb'_append_eq_of_add_le (by omega)]
  exact BitVec.extractLsb'_eq_self

@[simp] theorem dataField_packWord (op arg : BitVec 4) (data : Byte) : dataField (packWord op arg data) = data := by
  unfold dataField packWord
  rw [BitVec.extractLsb'_append_eq_of_add_le (by omega)]
  exact BitVec.extractLsb'_eq_self

/-- The three fields are all of a word. -/
theorem packWord_fields (w : CmdWord) : packWord (opField w) (argField w) (dataField w) = w := by
  unfold packWord opField argField dataField
  rw [BitVec.extractLsb'_append_extractLsb'_eq_extractLsb' (by omega),
    BitVec.extractLsb'_append_extractLsb'_eq_extractLsb' (by omega)]
  exact BitVec.extractLsb'_eq_self

theorem packWord_eq_iff {op arg : BitVec 4} {data : Byte} {w : CmdWord} :
    packWord op arg data = w ↔ opField w = op ∧ argField w = arg ∧ dataField w = data := by
  constructor
  · rintro rfl
    simp
  · rintro ⟨rfl, rfl, rfl⟩
    exact packWord_fields w

@[simp] theorem opField_and (v w : CmdWord) : opField (v &&& w) = opField v &&& opField w :=
  BitVec.extractLsb'_and

@[simp] theorem argField_and (v w : CmdWord) : argField (v &&& w) = argField v &&& argField w :=
  BitVec.extractLsb'_and

@[simp] theorem dataField_and (v w : CmdWord) : dataField (v &&& w) = dataField v &&& dataField w :=
  BitVec.extractLsb'_and

/-! ## The decoder is the inverse of the encoder (R63, R64) -/

theorem decodePlain_eq_ok {w : CmdWord} {i j : Instr} :
    decodePlain w i = .ok j ↔ argField w = 0#4 ∧ dataField w = 0#8 ∧ i = j := by
  by_cases harg : argField w = 0#4 <;> by_cases hdata : dataField w = 0#8 <;> simp [decodePlain, harg, hdata]

theorem decodeData_eq_ok {w : CmdWord} {i : Byte → Instr} {j : Instr} :
    decodeData w i = .ok j ↔ argField w = 0#4 ∧ i (dataField w) = j := by
  by_cases harg : argField w = 0#4 <;> simp [decodeData, harg]

/-- `ARG[3:1]` is 0 exactly where `ARG` is the mode bit of a mode. -/
theorem extractLsb'_eq_zero_iff_modeArg {a : BitVec 4} {m : Mode} :
    a.extractLsb' 1 3 = 0#3 ∧ modeOfBit (a.getLsbD 0) = m ↔ a = modeArg m := by
  cases m <;> revert a <;> decide

theorem decodeStart_eq_ok {w : CmdWord} {j : Instr} :
    decodeStart w = .ok j ↔ ∃ m, argField w = modeArg m ∧ dataField w = 0#8 ∧ .start m = j := by
  simp only [← extractLsb'_eq_zero_iff_modeArg]
  by_cases harg : (argField w).extractLsb' 1 3 = 0#3 <;> by_cases hdata : dataField w = 0#8 <;>
    simp [decodeStart, harg, hdata]

theorem decodeAbort_eq_ok {w : CmdWord} {j : Instr} :
    decodeAbort w = .ok j ↔ hostCodeOk (argField w) = true ∧ dataField w = 0#8 ∧ .abort (argField w) = j := by
  by_cases hcode : hostCodeOk (argField w) = true <;> by_cases hdata : dataField w = 0#8 <;>
    simp [decodeAbort, hcode, hdata]

/-- Settles O18, by the branches of the decoder: each fixes all three fields of the word. -/
theorem encodeOfDecode : Obligations.EncodeOfDecode := by
  intro w i h
  have op {k : BitVec 4} (hk : (opField w).toNat = k.toNat) : opField w = k := BitVec.eq_of_toNat_eq hk
  unfold decode at h
  split at h
  case h_1 hop | h_2 hop | h_6 hop =>
    obtain ⟨harg, hdata, rfl⟩ := decodePlain_eq_ok.mp h
    exact ⟨rfl, packWord_eq_iff.mpr ⟨op hop, harg, hdata⟩⟩
  case h_3 hop | h_5 hop | h_8 hop | h_9 hop =>
    obtain ⟨harg, rfl⟩ := decodeData_eq_ok.mp h
    exact ⟨rfl, packWord_eq_iff.mpr ⟨op hop, harg, rfl⟩⟩
  case h_4 hop =>
    obtain ⟨m, harg, hdata, rfl⟩ := decodeStart_eq_ok.mp h
    exact ⟨rfl, packWord_eq_iff.mpr ⟨op hop, harg, hdata⟩⟩
  case h_7 hop =>
    obtain ⟨hcode, hdata, rfl⟩ := decodeAbort_eq_ok.mp h
    exact ⟨hcode, packWord_eq_iff.mpr ⟨op hop, rfl, hdata⟩⟩
  case h_10 => cases h

/-- Settles O17: the opcode of the word selects its command's branch, which finds the operands it packed. -/
theorem decodeOfEncode : Obligations.DecodeOfEncode := by
  intro i hwf
  cases i with
  | nop | clear | finish => simp [decode, encode, decodePlain_eq_ok]
  | keyByte d | process d | peekFwd d | peekInv d => simp [decode, encode, decodeData_eq_ok]
  | start m => simp [decode, encode, decodeStart_eq_ok]
  | abort c =>
    have hcode : hostCodeOk c = true := hwf
    simp [decode, encode, decodeAbort_eq_ok, hcode]

/-- The decoder, said once: it finds the well-formed command that the word encodes. -/
theorem decode_eq_ok_iff {w : CmdWord} {i : Instr} : decode w = .ok i ↔ wellFormed i = true ∧ encode i = w := by
  refine ⟨encodeOfDecode w i, ?_⟩
  rintro ⟨hwf, rfl⟩
  exact decodeOfEncode i hwf

/-- No word stands for two commands. -/
theorem encode_inj {i j : Instr} (hi : wellFormed i = true) (hj : wellFormed j = true) (h : encode i = encode j) :
    i = j := by
  have hdecode : decode (encode j) = .ok i := decode_eq_ok_iff.mpr ⟨hi, h⟩
  simpa [decodeOfEncode j hj, eq_comm] using hdecode

/-! ## The opcode map (R62) -/

/-- The word of a well-formed command matches the row of its mnemonic. -/
theorem encode_matchesRow (i : Instr) : Laws.EncodeMatchesRow.Statement i := by
  cases i with
  | nop => exact Laws.EncodeMatchesRow.nop
  | clear => exact Laws.EncodeMatchesRow.clear
  | keyByte d => exact Laws.EncodeMatchesRow.keyByte d
  | start m => exact Laws.EncodeMatchesRow.start m
  | process b => exact Laws.EncodeMatchesRow.process b
  | finish => exact Laws.EncodeMatchesRow.finish
  | abort c => exact Laws.EncodeMatchesRow.abort c
  | peekFwd x => exact Laws.EncodeMatchesRow.peekFwd x
  | peekInv x => exact Laws.EncodeMatchesRow.peekInv x

theorem row_eq_of_mnemonic {r q : OpcodeRow} (hr : r ∈ opcodeRows) (hq : q ∈ opcodeRows)
    (h : r.mnemonic = q.mnemonic) : r = q := by
  have distinct : (opcodeRows.map OpcodeRow.mnemonic).Nodup := by decide
  exact List.inj_on_of_nodup_map distinct hr hq h

/-- A mask and a pattern are matched field by field. -/
theorem and_packWord_eq_iff {w : CmdWord} {opMask argMask op arg : BitVec 4} {dataMask data : Byte} :
    w &&& packWord opMask argMask dataMask = packWord op arg data ↔
      opField w &&& opMask = op ∧ argField w &&& argMask = arg ∧ dataField w &&& dataMask = data := by
  rw [eq_comm, packWord_eq_iff]
  simp

/-- The mask of a command with a `DATA` operand leaves `DATA` free. -/
theorem and_dataMask_eq_iff {w : CmdWord} {op : BitVec 4} :
    w &&& 0xFF00#16 = packWord op 0#4 0#8 ↔ opField w = op ∧ argField w = 0#4 := by
  have mask : 0xFF00#16 = packWord (BitVec.allOnes 4) (BitVec.allOnes 4) 0#8 := by decide
  rw [mask, and_packWord_eq_iff, BitVec.and_allOnes, BitVec.and_allOnes, BitVec.and_zero]
  simp

/-- The mask of `START` leaves the mode bit free. -/
theorem and_startMask_eq_iff {w : CmdWord} {op : BitVec 4} :
    w &&& 0xFEFF#16 = packWord op 0#4 0#8 ↔
      opField w = op ∧ (∃ m, argField w = modeArg m) ∧ dataField w = 0#8 := by
  have mask : 0xFEFF#16 = packWord (BitVec.allOnes 4) 0xE#4 (BitVec.allOnes 8) := by decide
  have free : ∀ a : BitVec 4, a &&& 0xE#4 = 0#4 ↔ a.extractLsb' 1 3 = 0#3 := by decide
  rw [mask, and_packWord_eq_iff, BitVec.and_allOnes, BitVec.and_allOnes, free]
  simp [← extractLsb'_eq_zero_iff_modeArg]

/-- The mask of `ABORT` leaves `ARG` free. -/
theorem and_abortMask_eq_iff {w : CmdWord} {op : BitVec 4} :
    w &&& 0xF0FF#16 = packWord op 0#4 0#8 ↔ opField w = op ∧ dataField w = 0#8 := by
  have mask : 0xF0FF#16 = packWord (BitVec.allOnes 4) 0#4 (BitVec.allOnes 8) := by decide
  rw [mask, and_packWord_eq_iff, BitVec.and_allOnes, BitVec.and_allOnes, BitVec.and_zero]
  simp

theorem matchesRow_iff {w : CmdWord} {r : OpcodeRow} :
    matchesRow w r = true ↔
      w &&& r.mask = r.pattern ∧ (r.mnemonic = "ABORT" → hostCodeOk (argField w) = true) := by
  simp [matchesRow, imp_iff_not_or]

/-- A word that matches a row is the word of a well-formed command of that row: the bits the mask leaves free are the
operand. -/
theorem exists_encode_of_matchesRow {w : CmdWord} {r : OpcodeRow} (hr : r ∈ opcodeRows) (h : matchesRow w r = true) :
    ∃ i, wellFormed i = true ∧ encode i = w ∧ mnemonic i = r.mnemonic := by
  obtain ⟨hmask, habort⟩ := matchesRow_iff.mp h
  have ofPlain {pattern : CmdWord} (e : w &&& BitVec.allOnes 16 = pattern) : pattern = w :=
    e.symm.trans BitVec.and_allOnes
  have ofData {op : BitVec 4} (e : w &&& 0xFF00#16 = packWord op 0#4 0#8) : packWord op 0#4 (dataField w) = w := by
    obtain ⟨hop, harg⟩ := and_dataMask_eq_iff.mp e
    exact packWord_eq_iff.mpr ⟨hop, harg, rfl⟩
  simp only [opcodeRows, List.mem_cons, List.not_mem_nil, or_false] at hr
  rcases hr with rfl | rfl | rfl | rfl | rfl | rfl | rfl | rfl | rfl
  · exact ⟨.nop, rfl, ofPlain hmask, rfl⟩
  · exact ⟨.clear, rfl, ofPlain hmask, rfl⟩
  · exact ⟨.keyByte (dataField w), rfl, ofData hmask, rfl⟩
  · obtain ⟨hop, ⟨m, harg⟩, hdata⟩ := (and_startMask_eq_iff (op := 3#4)).mp hmask
    exact ⟨.start m, rfl, packWord_eq_iff.mpr ⟨hop, harg, hdata⟩, rfl⟩
  · exact ⟨.process (dataField w), rfl, ofData hmask, rfl⟩
  · exact ⟨.finish, rfl, ofPlain hmask, rfl⟩
  · obtain ⟨hop, hdata⟩ := (and_abortMask_eq_iff (op := 6#4)).mp hmask
    exact ⟨.abort (argField w), habort rfl, packWord_eq_iff.mpr ⟨hop, rfl, hdata⟩, rfl⟩
  · exact ⟨.peekFwd (dataField w), rfl, ofData hmask, rfl⟩
  · exact ⟨.peekInv (dataField w), rfl, ofData hmask, rfl⟩

theorem exists_decode_of_matchesRow {w : CmdWord} {r : OpcodeRow} (hr : r ∈ opcodeRows) (h : matchesRow w r = true) :
    ∃ i, decode w = .ok i ∧ mnemonic i = r.mnemonic := by
  obtain ⟨i, hwf, hword, hname⟩ := exists_encode_of_matchesRow hr h
  exact ⟨i, decode_eq_ok_iff.mpr ⟨hwf, hword⟩, hname⟩

/-- A word that decodes matches the row of its command's mnemonic. -/
theorem exists_matchesRow_of_decode {w : CmdWord} {i : Instr} (h : decode w = .ok i) :
    ∃ r ∈ opcodeRows, r.mnemonic = mnemonic i ∧ matchesRow w r = true := by
  obtain ⟨hwf, rfl⟩ := decode_eq_ok_iff.mp h
  exact encode_matchesRow i hwf

/-- Settles O19. Decoding answers one command at most and no two rows share a mnemonic, so a word matches one row at
most. -/
theorem decoderFollowsTheOpcodeMap : Obligations.DecoderFollowsTheOpcodeMap := by
  refine fun w => ⟨⟨?decodes, ?matched⟩, fun i hi r hr => ⟨fun hmatch => ?sameName, fun hname => ?itsRow⟩⟩
  case decodes =>
    rintro ⟨i, hi⟩
    obtain ⟨r, hr, -, hmatch⟩ := exists_matchesRow_of_decode hi
    exact ⟨r, hr, hmatch⟩
  case matched =>
    rintro ⟨r, hr, hmatch⟩
    obtain ⟨i, hi, -⟩ := exists_decode_of_matchesRow hr hmatch
    exact ⟨i, hi⟩
  case sameName =>
    obtain ⟨j, hj, hname⟩ := exists_decode_of_matchesRow hr hmatch
    have hij : i = j := by simpa [hi] using hj
    exact hij ▸ hname.symm
  case itsRow =>
    obtain ⟨q, hq, hqname, hmatch⟩ := exists_matchesRow_of_decode hi
    have hrq : r = q := row_eq_of_mnemonic hr hq (hname.trans hqname.symm)
    exact hrq ▸ hmatch

/-! ## Words that decode to no command (R64, R65) -/

/-- What an `Illegal` word does is what R65 says, from every state. -/
theorem raisesIllegal_of_not_decoded {w : CmdWord} (h : ∀ i, decode w ≠ .ok i) : RaisesIllegal w := by
  intro s
  rw [runWord_of_not_decoded h]
  rcases takeIllegal_cases s with ⟨hf, ht⟩ | ⟨hf, ht⟩
  · exact ⟨fun hne => absurd hf hne, fun _ => ⟨_, ht, noPulse_noEffect s⟩⟩
  · exact ⟨fun _ => ⟨_, ht, failEntry_failedWith _ s⟩, fun he => absurd he hf⟩

/-- The opcodes in use are 0 to 8 (R62). -/
theorem opField_encode_lt (i : Instr) : (opField (encode i)).toNat < 9 := by
  cases i <;> simp [encode]

theorem not_decoded_of_reserved {w : CmdWord} (h : 9 ≤ (opField w).toNat) (i : Instr) : decode w ≠ .ok i := by
  intro hi
  obtain ⟨-, rfl⟩ := decode_eq_ok_iff.mp hi
  exact absurd (opField_encode_lt i) h.not_gt

/-- Settles O13. -/
theorem undecodableWordsAreIllegal : Obligations.UndecodableWordsAreIllegal :=
  ⟨fun _ => raisesIllegal_of_not_decoded, fun _ h => raisesIllegal_of_not_decoded (not_decoded_of_reserved h)⟩

/-! ## Every step after the first reset (R100, R122) -/

theorem completeFlight_next (f : Flight) {s : State} (hi : s.initialised = true) :
    ∃ t, completeFlight f s = .next t ∧ t.initialised = true := by
  rcases completeFlight_cases f s with ⟨w, t, -, -, ht, -, hinit, -⟩ | ⟨-, ht⟩
  · exact ⟨t, ht, hinit.trans hi⟩
  · exact ⟨_, ht, rfl⟩

theorem readyEdge_initialised (p : Pins) {s : State} (hi : s.initialised = true) :
    (readyEdge p s).initialised = true := by
  unfold readyEdge
  split <;> exact hi

theorem clockEdge_next (p : Pins) {s : State} (hi : s.initialised = true) :
    ∃ t, clockEdge p s = .next t ∧ t.initialised = true := by
  rcases clockEdge_cases p s with ⟨-, hc⟩ | ⟨-, -, hno, -⟩ | ⟨-, -, ⟨f, -, hc⟩ | ⟨-, hc⟩⟩
  · exact ⟨_, hc, hi⟩
  · simp [hi] at hno
  · rw [hc]
    rcases busyEdge_cases f s with ⟨-, hb⟩ | ⟨-, hb⟩
    · rw [hb]
      exact completeFlight_next f hi
    · exact ⟨_, hb, hi⟩
  · exact ⟨_, hc, readyEdge_initialised p hi⟩

theorem transact_next (w : CmdWord) {s : State} (hi : s.initialised = true) :
    ∃ t, transact w s = .next t ∧ t.initialised = true := by
  obtain ⟨r, hsettle, -, hr, -⟩ := settle_next s hi
  obtain ⟨t, ht, side⟩ := runWord_next_side w r
  exact ⟨t, (transact_of_settle hi hsettle).trans ht, side.initialised.trans hr⟩

theorem takeEvent_next (e : HostEvent) {s : State} (hi : s.initialised = true) :
    ∃ t, takeEvent e s = .next t ∧ t.initialised = true := by
  cases e with
  | command w => exact transact_next w hi
  | reset => exact ⟨_, rfl, rfl⟩
  | edge p => exact clockEdge_next p hi

/-- Settles O25, by what the host does next: nothing, or the first event of its list. -/
theorem everyStepAfterResetCompletes : Obligations.EveryStepAfterResetCompletes := by
  intro s hi
  cases hbox : s.inbox with
  | nil =>
    rw [step_of_inbox_nil hbox]
    exact clockEdge_next Pins.quiet hi
  | cons e rest =>
    rw [step_of_inbox_cons hbox]
    exact takeEvent_next e hi

/-! ## How many words decode (R63) -/

/-- Every byte, in order. -/
def allBytes : List Byte := (List.finRange 256).map BitVec.ofFin

theorem mem_allBytes (b : Byte) : b ∈ allBytes :=
  List.mem_map.mpr ⟨b.toFin, List.mem_finRange _, rfl⟩

theorem allBytes_nodup : allBytes.Nodup :=
  (List.nodup_finRange 256).map fun _ _ h => congrArg BitVec.toFin h

/-- The well-formed commands, one list for each opcode. `mem_commandsByOpcode` ties it to `wellFormed`. -/
def commandsByOpcode : List (List Instr) :=
  [[.nop], [.clear], allBytes.map .keyByte, [.start .encrypt, .start .decrypt], allBytes.map .process, [.finish],
    [.abort 1#4, .abort 2#4, .abort 3#4, .abort 4#4, .abort 5#4], allBytes.map .peekFwd, allBytes.map .peekInv]

theorem hostCodeOk_iff {c : BitVec 4} :
    hostCodeOk c = true ↔ c = 1#4 ∨ c = 2#4 ∨ c = 3#4 ∨ c = 4#4 ∨ c = 5#4 := by
  revert c
  decide

theorem mem_commandsByOpcode {i : Instr} : i ∈ commandsByOpcode.flatten ↔ wellFormed i = true := by
  cases i with
  | nop | clear | finish => simp [commandsByOpcode, wellFormed]
  | keyByte d | process d | peekFwd d | peekInv d => simp [commandsByOpcode, wellFormed, mem_allBytes]
  | start m => cases m <;> simp [commandsByOpcode, wellFormed]
  | abort c => simp [commandsByOpcode, wellFormed, hostCodeOk_iff]

theorem commandsByOpcode_nodup : commandsByOpcode.flatten.Nodup := by
  refine List.nodup_flatten.mpr ⟨?eachOpcode, ?twoOpcodes⟩
  case eachOpcode => simp [commandsByOpcode, List.nodup_map_iff_inj_on allBytes_nodup]
  case twoOpcodes => simp [commandsByOpcode, List.disjoint_left]

/-- 1 + 1 + 256 + 2 + 256 + 1 + 5 + 256 + 256, opcode by opcode. -/
theorem commandsByOpcode_length : commandsByOpcode.flatten.length = 1034 := by
  simp [commandsByOpcode, allBytes]

theorem isOk_decode_iff {w : CmdWord} : (decode w).isOk = true ↔ ∃ i, decode w = .ok i := by
  cases decode w <;> simp [Except.isOk, Except.toBool]

/-- The numbers of the decodable words are those of the words of the well-formed commands. -/
theorem filter_decodable_perm :
    ((List.range 65536).filter fun n => (decode (BitVec.ofNat 16 n)).isOk).Perm
      (commandsByOpcode.flatten.map fun i => (encode i).toNat) := by
  have distinctWords : (commandsByOpcode.flatten.map fun i => (encode i).toNat).Nodup :=
    commandsByOpcode_nodup.map_on fun i hi j hj h =>
      encode_inj (mem_commandsByOpcode.mp hi) (mem_commandsByOpcode.mp hj) (BitVec.eq_of_toNat_eq h)
  refine (List.perm_ext_iff_of_nodup (List.nodup_range.filter _) distinctWords).mpr fun n => ?_
  simp only [List.mem_filter, List.mem_range, List.mem_map, mem_commandsByOpcode, isOk_decode_iff, decode_eq_ok_iff]
  constructor
  · rintro ⟨hlt, i, hwf, hword⟩
    exact ⟨i, hwf, by simp [hword, Nat.mod_eq_of_lt hlt]⟩
  · rintro ⟨i, hwf, rfl⟩
    exact ⟨(encode i).isLt, i, hwf, by simp⟩

/-- Settles O20: there are as many decodable words as well-formed commands. -/
theorem decodableWordCount : Obligations.DecodableWordCount := by
  unfold Obligations.DecodableWordCount
  rw [List.countP_eq_length_filter, filter_decodable_perm.length_eq, List.length_map, commandsByOpcode_length]

/-! ## Sample words and pseudo-instructions (R62, R67) -/

/-- Settles O21: each word is the one its command encodes to. -/
theorem sampleWordsDecode : Obligations.SampleWordsDecode := by
  have ofCommand (i : Instr) (hwf : wellFormed i = true) : decode (encode i) = .ok i := decodeOfEncode i hwf
  exact ⟨ofCommand .nop rfl, ofCommand .clear rfl, ofCommand (.keyByte 0xFF#8) rfl, ofCommand (.start .decrypt) rfl,
    ofCommand (.process 0x41#8) rfl, ofCommand .finish rfl, ofCommand (.abort 5#4) rfl,
    ofCommand (.peekFwd 0xFF#8) rfl, ofCommand (.peekInv 0xAB#8) rfl⟩

/-- Settles O22: an expansion maps `encode` over the bytes, in their order. -/
theorem pseudoInstructionsExpand : Obligations.PseudoInstructionsExpand := by
  refine ⟨fun k => ⟨?length, fun j => ?order⟩, fun bs => ⟨rfl, fun j => List.getElem?_map⟩⟩
  case length => exact List.length_map _ |>.trans Vector.length_toList
  case order =>
    have hbyte : k.toList[j.toNat]? = some (readKey k j) := by simp [readKey]
    simp [expandLine, hbyte]

end Sys2Proof.Machine
end

section
/-! PROOFS. The round function (40_round_function.md): the paired swap, the round as a list of swaps, the permutation of
positions that such a list makes, and the closed form `rho` of the one that a round makes. -/

namespace Sys2Proof.Machine

open Sys2Proof.Safety

/-! ## The block size (R68) -/

theorem blockSize_of_ne {k : Byte} (h0 : k ≠ 0#8) (h1 : k ≠ 1#8) : blockSize k = k.toNat := by
  simp [blockSize, h0, h1]

theorem blockSize_pos (k : Byte) : 0 < blockSize k := two_pos.trans_le (blockSize_bounds k).1

/-- A round reads its key byte only for the block size. -/
theorem applyRound_congr {j k : Byte} (h : blockSize j = blockSize k) (t : Tables) : applyRound j t = applyRound k t := by
  simp only [applyRound, h]

/-- Settles O31. -/
theorem blockSizeOfKeyByte : Obligations.BlockSizeOfKeyByte := by
  intro k
  obtain ⟨two_le, le_255⟩ := blockSize_bounds k
  exact ⟨fun h => if_pos h, blockSize_of_ne, two_le, le_255,
    fun t => ⟨applyRound_congr (by decide) t, applyRound_congr (by decide) t⟩⟩

/-! ## The paired swap (R69) -/

/-- In mutually inverse tables a value stands at the position that the inverse table gives for it. -/
theorem eq_readEntry_fwd_iff {t : Tables} (h : MutualInverse t) {p v : Byte} :
    v = readEntry t.fwd p ↔ readEntry t.inv v = p :=
  ⟨fun e => e ▸ (h p).1, fun e => e ▸ (h v).2.symm⟩

/-- Settles O32: the swap permutes the positions, as `Equiv.swap` says case by case. -/
theorem swapExchangesTwoEntries : Obligations.SwapExchangesTwoEntries := by
  refine fun a b t _ h => ⟨fun p => ?fwd, fun v => ?inv⟩
  case fwd =>
    rw [readEntry_swapEntries_fwd, Equiv.swap_apply_def]
    split_ifs <;> rfl
  case inv => simp only [readEntry_swapEntries_inv _ _ _ h, Equiv.swap_apply_def, eq_readEntry_fwd_iff h]

/-- Settles O35. -/
theorem roundKeepsTablesInverse : Obligations.RoundKeepsTablesInverse :=
  ⟨fun a b _ _ h => swapEntries_mutualInverse a b h, fun k _ h => applyRound_mutualInverse k h⟩

/-! ## Lists of swaps as permutations of positions -/

/-- The permutation of positions that the swaps of a list make, one after the other. `readEntry_applySwaps_fwd` and
`readEntry_applySwaps_inv` tie it to `applySwaps`. -/
def exchange (l : List (Byte × Byte)) : Equiv.Perm Byte := (l.map fun q => Equiv.swap q.1 q.2).prod

@[simp] theorem exchange_nil : exchange [] = 1 := rfl

@[simp] theorem exchange_cons (q : Byte × Byte) (l : List (Byte × Byte)) :
    exchange (q :: l) = Equiv.swap q.1 q.2 * exchange l := List.prod_cons

@[simp] theorem applySwaps_nil (t : Tables) : applySwaps [] t = t := rfl

@[simp] theorem applySwaps_cons (q : Byte × Byte) (l : List (Byte × Byte)) (t : Tables) :
    applySwaps (q :: l) t = applySwaps l (swapEntries q.1 q.2 t) := rfl

theorem applySwaps_append (l m : List (Byte × Byte)) (t : Tables) :
    applySwaps (l ++ m) t = applySwaps m (applySwaps l t) := List.foldl_append

theorem readEntry_applySwaps_fwd (l : List (Byte × Byte)) (t : Tables) (p : Byte) :
    readEntry (applySwaps l t).fwd p = readEntry t.fwd (exchange l p) := by
  induction l generalizing t with
  | nil => rfl
  | cons q l ih => rw [applySwaps_cons, ih, readEntry_swapEntries_fwd, exchange_cons, Equiv.Perm.mul_apply]

theorem readEntry_applySwaps_inv (l : List (Byte × Byte)) {t : Tables} (h : MutualInverse t) (v : Byte) :
    readEntry (applySwaps l t).inv v = (exchange l)⁻¹ (readEntry t.inv v) := by
  induction l generalizing t with
  | nil => rfl
  | cons q l ih =>
    rw [applySwaps_cons, ih (swapEntries_mutualInverse _ _ h), readEntry_swapEntries_inv _ _ _ h, exchange_cons,
      mul_inv_rev, Equiv.swap_inv, Equiv.Perm.mul_apply]

/-- The list holds each pair of positions that the involution `f` exchanges, once and with the lesser position first. -/
structure ListsExchanges (f : Byte → Byte) (l : List (Byte × Byte)) : Prop where
  involutive : Function.Involutive f
  nodup : l.Nodup
  mem_iff : ∀ {a b : Byte}, (a, b) ∈ l ↔ a.toNat < b.toNat ∧ f a = b

theorem ListsExchanges.of_perm {f : Byte → Byte} {l m : List (Byte × Byte)} (h : ListsExchanges f m) (perm : l.Perm m) :
    ListsExchanges f l where
  involutive := h.involutive
  nodup := perm.nodup_iff.mpr h.nodup
  mem_iff := perm.mem_iff.trans h.mem_iff

/-- Swaps of some of the pairs that `f` exchanges, each made once, make `f` on the positions in them and move no other. -/
theorem exchange_apply {f : Byte → Byte} (hf : Function.Involutive f) {l : List (Byte × Byte)} (nodup : l.Nodup)
    (pairs : ∀ a b, (a, b) ∈ l → a.toNat < b.toNat ∧ f a = b) (p : Byte) :
    exchange l p = if (p, f p) ∈ l ∨ (f p, p) ∈ l then f p else p := by
  induction l with
  | nil => simp
  | cons q l ih =>
    obtain ⟨a, b⟩ := q
    obtain ⟨hlt, rfl⟩ := pairs a b List.mem_cons_self
    obtain ⟨fresh, nodup⟩ := List.nodup_cons.mp nodup
    have reversed : (f a, a) ∉ l := fun h => by
      have := (pairs _ _ (List.mem_cons_of_mem _ h)).1
      omega
    rw [exchange_cons, Equiv.Perm.mul_apply, ih nodup fun c d h => pairs c d (List.mem_cons_of_mem _ h)]
    by_cases hpa : p = a
    · subst hpa
      simp [fresh, reversed]
    · by_cases hpb : p = f a
      · subst hpb
        simp [hf a, fresh, reversed]
      · have hfa : f p ≠ f a := fun e => hpa (hf.injective e)
        have hfb : f p ≠ a := fun e => hpb (by rw [← e, hf p])
        simp only [List.mem_cons, Prod.mk.injEq, hpa, hpb, false_and, and_false, false_or]
        split
        · exact Equiv.swap_apply_of_ne_of_ne hfb hfa
        · exact Equiv.swap_apply_of_ne_of_ne hpa hpb

/-- The swaps of all the pairs that `f` exchanges make `f`, in whatever order the list has them. -/
theorem ListsExchanges.exchange_eq {f : Byte → Byte} {l : List (Byte × Byte)} (h : ListsExchanges f l) (p : Byte) :
    exchange l p = f p := by
  rw [exchange_apply h.involutive h.nodup (fun a b => h.mem_iff.mp) p]
  split
  · rfl
  · next none =>
    simp only [h.mem_iff, h.involutive p, and_true, not_or, not_lt] at none
    exact BitVec.eq_of_toNat_eq (le_antisymm none.2 none.1)

theorem ListsExchanges.exchange_inv_eq {f : Byte → Byte} {l : List (Byte × Byte)} (h : ListsExchanges f l) (p : Byte) :
    (exchange l)⁻¹ p = f p := by
  rw [Equiv.Perm.inv_eq_iff_eq, h.exchange_eq, h.involutive p]

/-- Pairs that an involution exchanges share no position unless they are the same pair. -/
theorem ListsExchanges.positions_nodup {f : Byte → Byte} {l : List (Byte × Byte)} (h : ListsExchanges f l) :
    (l.flatMap fun q => [q.1, q.2]).Nodup := by
  refine List.nodup_flatMap.mpr ⟨?inPair, h.nodup.pairwise_of_forall_ne ?twoPairs⟩
  case inPair =>
    rintro ⟨a, b⟩ hab
    have := (h.mem_iff.mp hab).1
    have hne : a ≠ b := fun e => by simp [e] at this
    simp [hne]
  case twoPairs =>
    rintro ⟨a, b⟩ hab ⟨c, d⟩ hcd hne
    obtain ⟨hab, rfl⟩ := h.mem_iff.mp hab
    obtain ⟨hcd, rfl⟩ := h.mem_iff.mp hcd
    have hac : a ≠ c := fun e => hne (by rw [e])
    have hfac : f a ≠ f c := fun e => hac (h.involutive.injective e)
    have hafc : a ≠ f c := by
      rintro rfl
      rw [h.involutive c] at hab
      omega
    have hfca : f a ≠ c := by
      rintro rfl
      rw [h.involutive a] at hcd
      omega
    simp [Function.onFun, hac.symm, hfac.symm, hafc.symm, hfca.symm]

/-! ## The loops of a round as a list of swaps (R70, R71) -/

theorem reverseBlock_eq_applySwaps (o n : Nat) (t : Tables) : reverseBlock o n t = applySwaps (blockSwaps o n) t := by
  unfold reverseBlock blockSwaps
  induction n / 2 with
  | zero => rfl
  | succ m ih => rw [reverseSwaps, ih, List.range_succ, List.map_append, applySwaps_append]; rfl

theorem reverseTail_eq_applySwaps (o : Nat) (t : Tables) :
    reverseTail o t = applySwaps (blockSwaps o (256 - o)) t := by
  unfold reverseTail
  split
  · exact reverseBlock_eq_applySwaps _ _ t
  · next short =>
    have : (256 - o) / 2 = 0 := by omega
    simp [blockSwaps, this]

/-- From block `i` on, the loop reverses the full blocks that are left and ends where the tail starts. -/
theorem fullBlocks_eq_applySwaps {s : Nat} (hs : 0 < s) (passes i : Nat) (t : Tables) (hi : i ≤ 256 / s)
    (enough : 256 / s ≤ i + passes) :
    fullBlocks s passes (i * s) t =
      (256 / s * s, applySwaps ((List.range' i (256 / s - i)).flatMap fun j => blockSwaps (j * s) s) t) := by
  induction passes generalizing i t with
  | zero =>
    obtain rfl : i = 256 / s := by omega
    simp [fullBlocks]
  | succ passes ih =>
    have fits : i * s + s ≤ 256 ↔ i < 256 / s := by
      rw [← Nat.succ_mul, ← Nat.le_div_iff_mul_le hs, Nat.succ_le_iff]
    unfold fullBlocks
    split
    · next h =>
      have hlt := fits.mp h
      have left : 256 / s - i = (256 / s - (i + 1)) + 1 := by omega
      rw [← Nat.succ_mul, ih (i + 1) _ hlt (by omega), left, List.range'_succ, List.flatMap_cons, applySwaps_append,
        reverseBlock_eq_applySwaps]
    · next h =>
      obtain rfl : i = 256 / s := by have := mt fits.mpr h; omega
      simp

/-- The round makes its swaps in the order of `roundSwaps`. -/
theorem applyRound_eq_applySwaps (k : Byte) (t : Tables) : applyRound k t = applySwaps (roundSwaps k) t := by
  have blocks : 256 / blockSize k ≤ 128 := Nat.div_le_div_left (blockSize_bounds k).1 two_pos
  have loop := fullBlocks_eq_applySwaps (blockSize_pos k) 128 0 t (Nat.zero_le _) (by omega)
  rw [Nat.zero_mul, Nat.sub_zero, ← List.range_eq_range'] at loop
  simp only [applyRound, loop, roundSwaps, applySwaps_append, reverseTail_eq_applySwaps]

/-! ## The closed form of the round (R73, R74) -/

/-- `rho` mirrors a position in its block: the two are as far from the two ends of the block. -/
theorem add_rhoNat {s p : Nat} (hs : 0 < s) (hp : p < 256) :
    p + rhoNat s p + 1 = 2 * (p / s * s) + min s (256 - p / s * s) := by
  have start_le : p / s * s ≤ p := Nat.div_mul_le_self p s
  have lt_next : p < p / s * s + s := Nat.lt_div_mul_add hs
  have tail_le : 256 / s * s ≤ 256 := Nat.div_mul_le_self 256 s
  unfold rhoNat
  split
  · next full =>
    have : (p / s + 1) * s ≤ 256 / s * s := Nat.mul_le_mul_right s ((Nat.div_lt_iff_lt_mul hs).mpr full)
    rw [Nat.succ_mul] at this
    omega
  · next tail =>
    have inTail : p / s = 256 / s :=
      le_antisymm (Nat.div_le_div_right hp.le) ((Nat.le_div_iff_mul_le hs).mpr (not_lt.mp tail))
    have short_tail : 256 < 256 / s * s + s := Nat.lt_div_mul_add hs
    rw [inTail] at *
    omega

theorem rhoNat_lt {s p : Nat} (hs : 0 < s) (hp : p < 256) : rhoNat s p < 256 := by
  have := add_rhoNat hs hp
  have : p / s * s ≤ p := Nat.div_mul_le_self p s
  omega

/-- A position stays in its block. -/
theorem rhoNat_div {s p : Nat} (hs : 0 < s) (hp : p < 256) : rhoNat s p / s = p / s := by
  have mirror := add_rhoNat hs hp
  have start_le : p / s * s ≤ p := Nat.div_mul_le_self p s
  have lt_next : p < p / s * s + s := Nat.lt_div_mul_add hs
  exact Nat.div_eq_of_lt_le (by omega) (by rw [Nat.succ_mul]; omega)

theorem rhoNat_rhoNat {s p : Nat} (hs : 0 < s) (hp : p < 256) : rhoNat s (rhoNat s p) = p := by
  have there := add_rhoNat hs hp
  have back := add_rhoNat hs (rhoNat_lt hs hp)
  rw [rhoNat_div hs hp] at back
  omega

theorem toNat_rho (k p : Byte) : (rho k p).toNat = rhoNat (blockSize k) p.toNat :=
  position_toNat _ (rhoNat_lt (blockSize_pos k) p.isLt)

theorem rho_involutive (k : Byte) : Function.Involutive (rho k) := fun p =>
  BitVec.eq_of_toNat_eq (by rw [toNat_rho, toNat_rho, rhoNat_rhoNat (blockSize_pos k) p.isLt])

/-! ## The swaps of a round are the pairs that `rho` exchanges (R77) -/

/-- The swaps of a block pair the positions that are as far from its two ends. -/
theorem mem_blockSwaps {o n : Nat} (h : o + n ≤ 256) {a b : Byte} :
    (a, b) ∈ blockSwaps o n ↔
      o ≤ a.toNat ∧ a.toNat < b.toNat ∧ a.toNat + b.toNat + 1 = 2 * o + n := by
  simp only [blockSwaps, List.mem_map, List.mem_range, Prod.mk.injEq]
  constructor
  · rintro ⟨i, hi, rfl, rfl⟩
    rw [position_toNat _ (by omega), position_toNat _ (by omega)]
    omega
  · rintro ⟨hle, hlt, hsum⟩
    refine ⟨a.toNat - o, by omega, ?_, ?_⟩
    · rw [Nat.add_sub_cancel' hle, position_of_toNat]
    · rw [show o + n - 1 - (a.toNat - o) = b.toNat by omega, position_of_toNat]

theorem blockSwaps_nodup {o n : Nat} (h : o + n ≤ 256) : (blockSwaps o n).Nodup := by
  refine List.nodup_range.map_on fun i hi j hj e => ?_
  rw [List.mem_range] at hi hj
  have := congrArg (fun q : Byte × Byte => q.1.toNat) e
  simp only [position_toNat _ (show o + i < 256 by omega), position_toNat _ (show o + j < 256 by omega)] at this
  omega

/-- A full block ends where the tail starts, or before. -/
theorem fullBlock_end_le {s j : Nat} (h : j < 256 / s) : j * s + s ≤ 256 / s * s := by
  rw [← Nat.succ_mul]
  exact Nat.mul_le_mul_right s h

/-- The first position of a swap of a full block tells the block. -/
theorem div_of_mem_blockSwaps {s j : Nat} (h : j * s + s ≤ 256) {q : Byte × Byte} (hq : q ∈ blockSwaps (j * s) s) :
    q.1.toNat / s = j := by
  obtain ⟨hle, hlt, hsum⟩ := (mem_blockSwaps h).mp hq
  exact Nat.div_eq_of_lt_le hle (by rw [Nat.succ_mul]; omega)

theorem roundSwaps_nodup (k : Byte) : (roundSwaps k).Nodup := by
  unfold roundSwaps
  generalize blockSize k = s
  have tail_le : 256 / s * s ≤ 256 := Nat.div_mul_le_self 256 s
  have inTables : ∀ j ∈ List.range (256 / s), j * s + s ≤ 256 := fun j hj =>
    (fullBlock_end_le (List.mem_range.mp hj)).trans tail_le
  have tail_end : 256 / s * s + (256 - 256 / s * s) ≤ 256 := by omega
  refine List.nodup_append.mpr ⟨List.nodup_flatMap.mpr ⟨?inBlock, ?twoBlocks⟩, blockSwaps_nodup tail_end, ?tail⟩
  case inBlock => exact fun j hj => blockSwaps_nodup (inTables j hj)
  case twoBlocks =>
    refine List.nodup_range.pairwise_of_forall_ne fun i hi j hj hne q hqi hqj => hne ?_
    rw [← div_of_mem_blockSwaps (inTables i hi) hqi, div_of_mem_blockSwaps (inTables j hj) hqj]
  case tail =>
    rintro q hq _ hq' rfl
    obtain ⟨j, hj, hq⟩ := List.mem_flatMap.mp hq
    obtain ⟨-, hlt, hsum⟩ := (mem_blockSwaps (inTables j hj)).mp hq
    obtain ⟨hle, -⟩ := (mem_blockSwaps tail_end).mp hq'
    have := fullBlock_end_le (List.mem_range.mp hj)
    omega

/-- A pair is a swap of the round exactly if `rho` takes its lesser position to its greater one. -/
theorem mem_roundSwaps {k a b : Byte} : (a, b) ∈ roundSwaps k ↔ a.toNat < b.toNat ∧ rho k a = b := by
  have pos := blockSize_pos k
  rw [← BitVec.toNat_inj, toNat_rho]
  simp only [roundSwaps, List.mem_append, List.mem_flatMap, List.mem_range]
  generalize blockSize k = s at *
  have tail_le : 256 / s * s ≤ 256 := Nat.div_mul_le_self 256 s
  have tail_end : 256 / s * s + (256 - 256 / s * s) ≤ 256 := by omega
  constructor
  · rintro (⟨j, hj, hq⟩ | hq)
    · have inTables := fullBlock_end_le hj
      have block := div_of_mem_blockSwaps (inTables.trans tail_le) hq
      obtain ⟨hle, hlt, hsum⟩ := (mem_blockSwaps (inTables.trans tail_le)).mp hq
      have full : a.toNat < 256 / s * s := by omega
      rw [rhoNat, if_pos full, block]
      omega
    · obtain ⟨hle, hlt, hsum⟩ := (mem_blockSwaps tail_end).mp hq
      rw [rhoNat, if_neg (by omega)]
      omega
  · rintro ⟨hlt, hrho⟩
    have := b.isLt
    by_cases full : a.toNat < 256 / s * s
    · have hj : a.toNat / s < 256 / s := (Nat.div_lt_iff_lt_mul pos).mpr full
      have := fullBlock_end_le hj
      rw [rhoNat, if_pos full] at hrho
      exact .inl ⟨_, hj, (mem_blockSwaps (by omega)).mpr ⟨Nat.div_mul_le_self _ _, hlt, by omega⟩⟩
    · rw [rhoNat, if_neg full] at hrho
      exact .inr ((mem_blockSwaps tail_end).mpr ⟨by omega, hlt, by omega⟩)

theorem roundSwaps_listsExchanges (k : Byte) : ListsExchanges (rho k) (roundSwaps k) where
  involutive := rho_involutive k
  nodup := roundSwaps_nodup k
  mem_iff := mem_roundSwaps

theorem readEntry_applyRound_fwd (k : Byte) (t : Tables) (p : Byte) :
    readEntry (applyRound k t).fwd p = readEntry t.fwd (rho k p) := by
  rw [applyRound_eq_applySwaps, readEntry_applySwaps_fwd, (roundSwaps_listsExchanges k).exchange_eq]

theorem readEntry_applyRound_inv (k : Byte) {t : Tables} (h : MutualInverse t) (v : Byte) :
    readEntry (applyRound k t).inv v = rho k (readEntry t.inv v) := by
  rw [applyRound_eq_applySwaps, readEntry_applySwaps_inv _ h, (roundSwaps_listsExchanges k).exchange_inv_eq]

/-- Settles O33. -/
theorem roundIsItsClosedForm : Obligations.RoundIsItsClosedForm := fun k t h =>
  ⟨readEntry_applyRound_fwd k t, readEntry_applyRound_inv k h⟩

/-- Pairs of tables with the same entries are the same pair. -/
theorem tables_ext {t u : Tables} (fwd : ∀ p, readEntry t.fwd p = readEntry u.fwd p)
    (inv : ∀ v, readEntry t.inv v = readEntry u.inv v) : t = u := by
  obtain ⟨tf, ti⟩ := t
  rw [table_ext tf _ fwd, table_ext ti _ inv]

/-- Settles O34: the two rounds read every entry through `rho` twice. -/
theorem roundUndoesItself : Obligations.RoundUndoesItself := by
  refine ⟨rho_involutive, fun k t h => tables_ext (fun p => ?fwd) fun v => ?inv⟩
  case fwd => rw [readEntry_applyRound_fwd, readEntry_applyRound_fwd, rho_involutive]
  case inv =>
    rw [readEntry_applyRound_inv k (applyRound_mutualInverse k h), readEntry_applyRound_inv k h, rho_involutive]

/-! ## Several rounds (R75) -/

theorem applyRounds_cons (k : Byte) (ks : List Byte) (t : Tables) :
    applyRounds (k :: ks) t = applyRounds ks (applyRound k t) := rfl

theorem readEntry_applyRounds_fwd (ks : List Byte) (t : Tables) (x : Byte) :
    readEntry (applyRounds ks t).fwd x = readEntry t.fwd (ks.foldr rho x) := by
  induction ks generalizing t with
  | nil => rfl
  | cons k ks ih => rw [applyRounds_cons, ih, readEntry_applyRound_fwd, List.foldr_cons]

theorem readEntry_applyRounds_inv (ks : List Byte) {t : Tables} (h : MutualInverse t) (x : Byte) :
    readEntry (applyRounds ks t).inv x = ks.foldl (fun v k => rho k v) (readEntry t.inv x) := by
  induction ks generalizing t with
  | nil => rfl
  | cons k ks ih =>
    rw [applyRounds_cons, ih (applyRound_mutualInverse k h), readEntry_applyRound_inv k h, List.foldl_cons]

/-- Settles O36: rounds from any mutually inverse tables, read at the identity. -/
theorem roundsComposeFromTheIdentity : Obligations.RoundsComposeFromTheIdentity := by
  refine fun ks x => ⟨?fwd, ?inv⟩
  case fwd => rw [readEntry_applyRounds_fwd, identityTables, readEntry_identityTable]
  case inv =>
    rw [readEntry_applyRounds_inv ks identityTables_mutualInverse, identityTables, readEntry_identityTable]

/-! ## Number and order of the swaps of a round (R77, R78) -/

theorem blockSwaps_length (o n : Nat) : (blockSwaps o n).length = n / 2 := by
  simp [blockSwaps]

theorem roundSwaps_length (k : Byte) :
    (roundSwaps k).length = 256 / blockSize k * (blockSize k / 2) + 256 % blockSize k / 2 := by
  have tail : 256 - 256 / blockSize k * blockSize k = 256 % blockSize k := by
    have := Nat.div_add_mod' 256 (blockSize k)
    omega
  simp [roundSwaps, blockSwaps_length, List.length_flatMap, tail]

/-- Each swap takes two of the 256 positions. -/
theorem roundSwaps_length_le (k : Byte) : (roundSwaps k).length ≤ 128 := by
  have positions := ((roundSwaps_listsExchanges k).positions_nodup.subperm fun x _ => mem_allBytes x).length_le
  have : (roundSwaps k).length * 2 ≤ 256 := by simpa [List.length_flatMap, allBytes] using positions
  omega

/-- Any order of the round's swaps exchanges the same pairs, so it gives the same tables. -/
theorem applySwaps_eq_applyRound {k : Byte} {l : List (Byte × Byte)} (perm : l.Perm (roundSwaps k)) {t : Tables}
    (h : MutualInverse t) : applySwaps l t = applyRound k t := by
  have exchanges := (roundSwaps_listsExchanges k).of_perm perm
  refine tables_ext (fun p => ?fwd) fun v => ?inv
  case fwd => rw [readEntry_applySwaps_fwd, exchanges.exchange_eq, readEntry_applyRound_fwd]
  case inv => rw [readEntry_applySwaps_inv l h, exchanges.exchange_inv_eq, readEntry_applyRound_inv k h]

/-- Settles O37. -/
theorem swapsOfARoundCommute : Obligations.SwapsOfARoundCommute := fun k =>
  ⟨roundSwaps_length k, roundSwaps_length_le k, (roundSwaps_listsExchanges k).positions_nodup,
    fun _ _ h perm => applySwaps_eq_applyRound perm h⟩

end Sys2Proof.Machine
end

section
/-! PROOFS. Byte substitution (41_byte_substitution.md): the `PROCESS` command, the cursor, and streams of bytes as one
substitution per key byte. -/

namespace Sys2Proof.Machine

open Sys2Proof.Safety

/-! ## The word of `PROCESS` (R62, R81) -/

theorem toNat_packWord (op arg : BitVec 4) (data : Byte) :
    (packWord op arg data).toNat = (op ++ arg).toNat <<< 8 ||| data.toNat := BitVec.toNat_append _ _

/-- A word with a `DATA` operand is its opcode's word with the operand in the low byte. -/
theorem packWord_eq_or (op arg : BitVec 4) (data : Byte) :
    packWord op arg data = packWord op arg 0#8 ||| data.setWidth 16 := by
  have narrow : (data.setWidth 16).toNat = data.toNat := BitVec.toNat_setWidth_of_le (by omega)
  apply BitVec.eq_of_toNat_eq
  rw [BitVec.toNat_or, toNat_packWord, toNat_packWord, narrow, BitVec.toNat_zero, Nat.or_zero]

theorem encode_process (b : Byte) : encode (.process b) = 0x4000#16 ||| b.setWidth 16 :=
  packWord_eq_or 4#4 0#4 b

theorem not_decoded_of_process_arg {w : CmdWord} (hop : opField w = 4#4) (harg : argField w ≠ 0#4) (i : Instr) :
    decode w ≠ .ok i := by
  intro h
  have hdata : decodeData w .process = .ok i := by simpa [decode, hop] using h
  exact harg (decodeData_eq_ok.mp hdata).1

/-! ## One `PROCESS` (R80, R81) -/

theorem exec_process_of_streaming (b : Byte) {s : State} (streaming : s.fsm = .streaming) :
    exec (.process b) s = .next (s.substitute b) := exec_of_effect (.process b streaming)

/-- The lookup in the tables after the round, as R82 selects the table. -/
theorem substitute_dout_eq_ite (b : Byte) (s : State) :
    (s.substitute b).dout =
      if s.mode = .encrypt then readEntry (s.substitute b).fwd b else readEntry (s.substitute b).inv b := by
  cases hm : s.mode <;> simp [lookup, hm]

/-- Settles O8, by the stream state: it decides whether the command runs, fails or is discarded. -/
theorem processRunsARoundThenSubstitutes : Obligations.ProcessRunsARoundThenSubstitutes := by
  refine ⟨fun b => ⟨encode_process b, encode_process b ▸ decodeOfEncode (.process b) rfl⟩,
    fun w hop harg => raisesIllegal_of_not_decoded (not_decoded_of_process_arg hop harg),
    fun b s => ⟨fun streaming => ?streaming, fun idle => ?idle, fun other => ?other, fun failed => ?failed⟩⟩
  case streaming =>
    exact ⟨s.substitute b, exec_process_of_streaming b streaming, rfl, substitute_dout_eq_ite b s, rfl, rfl,
      by simp [BitVec.toNat_add], by simp [BitVec.toNat_add], rfl, rfl, rfl, rfl, rfl, ⟨rfl, rfl, rfl, rfl⟩⟩
  case idle => exact ⟨_, exec_of_fails (by rw [idle]; rfl), failEntry_failedWith .keyNotLoaded s⟩
  case other =>
    have fails : disposition (.process b) s.fsm = .fails .sequenceError := by
      rcases other with hf | hf <;> rw [hf] <;> rfl
    exact ⟨_, exec_of_fails fails, failEntry_failedWith .sequenceError s⟩
  case failed => exact ⟨_, exec_of_discarded (by rw [failed]; rfl), noPulse_noEffect s⟩

theorem appendKeyByte_fsm_ne_failed (d : Byte) {s : State} (idle : s.fsm = .idle) :
    (s.appendKeyByte d).fsm ≠ .failed := by
  rw [State.appendKeyByte_fsm, idle]
  split <;> simp

/-- Settles O38. A command that fails or is discarded is none of those that move `CURSOR` by a rule of their own. -/
theorem onlyProcessAdvancesTheCursor : Obligations.OnlyProcessAdvancesTheCursor := by
  refine ⟨fun i s t h => ?_, fun s => ⟨_, step_offering_reset s, rfl⟩⟩
  cases exec_eq_next.mp h with
  | clear => rfl
  | nop | peekFwd | peekInv => simp
  | append d idle => exact (if_neg fun entry => appendKeyByte_fsm_ne_failed d idle entry.1).symm
  | start m loaded => simp [loaded]
  | process b streaming => simp [streaming]
  | finish streaming => simp [streaming]
  | discard discarded => split <;> simp_all [disposition]
  | fail e fails =>
    have entry := ne_failed_of_fails fails
    split <;> simp_all [disposition]

/-! ## The key stream (R79) -/

/-- The first key byte of a stream is `KEY[CURSOR]`; the others are those after it. -/
theorem keyStream_succ (s : State) (n : Nat) (b : Byte) :
    keyStream s (n + 1) = s.currentKeyByte :: keyStream (s.substitute b) n := by
  have next : ∀ j, BitVec.ofNat 4 (s.cursor.toNat + (j + 1)) =
      BitVec.ofNat 4 ((s.cursor + 1#4).toNat + j) := fun j => by
    apply BitVec.eq_of_toNat_eq
    simp [BitVec.toNat_add]
    omega
  simp [keyStream, List.range_succ_eq_map, State.currentKeyByte, next, Function.comp_def]

@[simp] theorem keyStream_length (s : State) (n : Nat) : (keyStream s n).length = n := by
  simp [keyStream]

/-- The key stream depends on `KEY` and `CURSOR` only. -/
theorem keyStream_congr {s u : State} (key : s.key = u.key) (cursor : s.cursor = u.cursor) (n : Nat) :
    keyStream s n = keyStream u n := by
  simp only [keyStream, key, cursor]

/-! ## A stream as a function of key bytes, tables and data (R81, R83) -/

/-- One output byte per key byte and data byte: each round mutates the tables, and the data byte is looked up in the
tables after it. `runCommands_process` ties it to `runCommands`. -/
def substituteBytes (m : Mode) : List Byte → Tables → List Byte → List Byte
  | k :: ks, t, b :: bs => lookup m (applyRound k t) b :: substituteBytes m ks (applyRound k t) bs
  | [], _, _ => []
  | _ :: _, _, [] => []

@[simp] theorem substituteBytes_cons (m : Mode) (k : Byte) (ks : List Byte) (t : Tables) (b : Byte) (bs : List Byte) :
    substituteBytes m (k :: ks) t (b :: bs) =
      lookup m (applyRound k t) b :: substituteBytes m ks (applyRound k t) bs := rfl

theorem substituteBytes_length (m : Mode) (ks : List Byte) (t : Tables) (bs : List Byte) :
    (substituteBytes m ks t bs).length = min ks.length bs.length := by
  fun_induction substituteBytes m ks t bs with
  | case1 k ks t b bs ih => simp [ih, Nat.add_min_add_right]
  | case2 => simp
  | case3 => simp

/-- In mutually inverse tables the lookup of a decrypt stream undoes that of an encrypt stream (R22, R82). -/
theorem lookup_decrypt_lookup_encrypt {t : Tables} (h : MutualInverse t) (b : Byte) :
    lookup .decrypt t (lookup .encrypt t b) = b := (h b).1

/-- R84 from any mutually inverse tables: both streams run the same rounds, so they look up in the same tables. -/
theorem substituteBytes_decrypt_encrypt {ks : List Byte} {t : Tables} (h : MutualInverse t) {bs : List Byte}
    (len : ks.length = bs.length) : substituteBytes .decrypt ks t (substituteBytes .encrypt ks t bs) = bs := by
  induction bs generalizing ks t with
  | nil =>
    obtain rfl := List.length_eq_zero_iff.mp len
    rfl
  | cons b bs ih =>
    obtain ⟨k, ks, rfl⟩ := List.exists_cons_of_length_eq_add_one len
    have inverse := applyRound_mutualInverse k h
    rw [substituteBytes_cons, substituteBytes_cons, lookup_decrypt_lookup_encrypt inverse,
      ih inverse (by simpa using len)]

/-- What `PROCESS` of `n` bytes leaves of the state `s` in the state `t`: `n` rounds on the tables, `CURSOR` and
`BYTE_COUNT` advanced. -/
structure Streamed (n : Nat) (s t : State) : Prop where
  tables : t.tables = applyRounds (keyStream s n) s.tables
  cursor : t.cursor.toNat = (s.cursor.toNat + n) % 16
  byteCount : t.byteCount.toNat = (s.byteCount.toNat + n) % 2 ^ 32
  key : t.key = s.key
  mode : t.mode = s.mode
  fsm : t.fsm = .streaming

theorem Streamed.zero {s : State} (streaming : s.fsm = .streaming) : Streamed 0 s s where
  tables := rfl
  cursor := by omega
  byteCount := by omega
  key := rfl
  mode := rfl
  fsm := streaming

theorem Streamed.succ {n : Nat} {s t : State} {b : Byte} (h : Streamed n (s.substitute b) t) :
    Streamed (n + 1) s t where
  tables := by rw [h.tables, keyStream_succ s n b, applyRounds_cons]; rfl
  cursor := by rw [h.cursor]; simp [BitVec.toNat_add]; omega
  byteCount := by rw [h.byteCount]; simp [BitVec.toNat_add]; omega
  key := h.key
  mode := h.mode
  fsm := h.fsm

/-- In `STREAMING` bytes are substituted one after the other, by induction on the bytes. -/
theorem runCommands_process (bs : List Byte) {s : State} (streaming : s.fsm = .streaming) :
    ∃ t, runCommands (bs.map .process) s =
        some (substituteBytes s.mode (keyStream s bs.length) s.tables bs, t) ∧ Streamed bs.length s t := by
  induction bs generalizing s with
  | nil => exact ⟨s, rfl, .zero streaming⟩
  | cons b bs ih =>
    obtain ⟨t, hrun, streamed⟩ := ih (s := s.substitute b) streaming
    refine ⟨t, ?_, streamed.succ⟩
    rw [List.map_cons, runCommands_cons_of_next (exec_process_of_streaming b streaming), hrun, List.length_cons,
      keyStream_succ s bs.length b, substituteBytes_cons]
    rfl

/-- Settles O49. Neither the key stream nor the tables of `s` depend on the mode. -/
theorem streamTablesFollowTheKeyAlone : Obligations.StreamTablesFollowTheKeyAlone := by
  intro bs m s streaming
  obtain ⟨t, hrun, streamed⟩ := runCommands_process bs (s := { s with mode := m }) streaming
  exact ⟨_, t, hrun, streamed.tables, by simp [substituteBytes_length], streamed.cursor, streamed.byteCount,
    streamed.key, streamed.fsm, streamed.mode⟩

/-! ## Whole streams (R84, R85, R121) -/

/-- The output of a whole stream with the key `k` over `msg` (R85): from the identity tables, with the key bytes from
`CURSOR` 0 on. `runCommands_session` ties it to `session`. -/
def streamOutput (m : Mode) (k : Key) (msg : List Byte) : List Byte :=
  substituteBytes m (keyStream { State.reset with key := k } msg.length) identityTables msg

@[simp] theorem streamOutput_length (m : Mode) (k : Key) (msg : List Byte) :
    (streamOutput m k msg).length = msg.length := by
  simp [streamOutput, substituteBytes_length]

/-- Streams over messages of one length run the rounds of the same key bytes. -/
theorem streamOutput_decrypt_encrypt (k : Key) (msg : List Byte) :
    streamOutput .decrypt k (streamOutput .encrypt k msg) = msg := by
  rw [streamOutput, streamOutput_length]
  exact substituteBytes_decrypt_encrypt identityTables_mutualInverse (keyStream_length _ _)

/-- `START` leaves the tables and the cursor that `streamOutput` begins with. -/
theorem streamOutput_started (m : Mode) (s : State) (msg : List Byte) :
    substituteBytes m (keyStream (s.started m) msg.length) (s.started m).tables msg = streamOutput m s.key msg := by
  rw [streamOutput, keyStream_congr (u := { State.reset with key := s.key }) rfl rfl]
  rfl

theorem runCommands_start (m : Mode) {s : State} (loaded : s.fsm = .keyLoaded) (is : List Instr) :
    runCommands (.start m :: is) s = runCommands is (s.started m) :=
  runCommands_append_of_silent (is := [.start m])
    ((runCommands_cons_of_next (exec_of_effect (.start m loaded)) []).trans rfl) is

theorem runCommands_finish {s : State} (streaming : s.fsm = .streaming) :
    runCommands [.finish] s = some ([], s.finished) :=
  (runCommands_cons_of_next (exec_of_effect (.finish streaming)) []).trans rfl

/-- A whole stream completes, and its output is a function of the mode, the key and the message. -/
theorem runCommands_session (m : Mode) (k : Key) (msg : List Byte) {s : State} (idle : s.fsm = .idle)
    (empty : s.keyCount = 0#5) :
    ∃ t, runCommands (session m k msg) s = some (streamOutput m k msg, t) ∧ t.fsm = .completed ∧ t.mode = m := by
  obtain ⟨l, hkey, rfl, -, loaded, -⟩ := sixteenKeyBytesLoadTheKey k s idle empty
  obtain ⟨t, hmsg, streamed⟩ := runCommands_process msg (s := l.started m) rfl
  refine ⟨t.finished, ?_, rfl, streamed.mode⟩
  rw [session, runCommands_append_of_silent hkey, runCommands_start m loaded, runCommands_append, hmsg]
  simp [runCommands_finish streamed.fsm, streamOutput_started]

/-- Settles O50. -/
theorem decryptUndoesEncrypt : Obligations.DecryptUndoesEncrypt := by
  intro k msg s u idle empty idle' empty'
  obtain ⟨t, hencrypt, tfsm, tmode⟩ := runCommands_session .encrypt k msg idle empty
  obtain ⟨v, hdecrypt, vfsm, vmode⟩ := runCommands_session .decrypt k (streamOutput .encrypt k msg) idle' empty'
  rw [streamOutput_decrypt_encrypt] at hdecrypt
  exact ⟨_, t, v, hencrypt, hdecrypt, streamOutput_length _ _ _, tfsm, tmode, vfsm, vmode⟩

/-- Settles O51. -/
theorem streamOutputIsDeterministic : Obligations.StreamOutputIsDeterministic := by
  intro m k msg s u idle empty idle' empty'
  obtain ⟨t, hs, -⟩ := runCommands_session m k msg idle empty
  obtain ⟨v, hu, -⟩ := runCommands_session m k msg idle' empty'
  exact ⟨_, t, v, hs, hu, streamOutput_length m k msg⟩

/-! ## Equivalent keys (R68, R88) -/

/-- Keys whose bytes give the same block sizes, so the same rounds. `blockSize_eq_of_le_two` ties it to R88. -/
def SameRounds (j k : Key) : Prop := ∀ i, blockSize (readKey j i) = blockSize (readKey k i)

theorem SameRounds.refl (k : Key) : SameRounds k k := fun _ => rfl

/-- The key bytes 0, 1 and 2 act alike (R68). -/
theorem blockSize_of_le_two {k : Byte} (h : k.toNat ≤ 2) : blockSize k = 2 := by
  by_cases hk : k = 0#8 ∨ k = 1#8
  · exact if_pos hk
  · obtain ⟨h0, h1⟩ := not_or.mp hk
    have two_le := (blockSize_bounds k).1
    rw [blockSize_of_ne h0 h1] at two_le ⊢
    exact le_antisymm h two_le

/-- The same key byte written into both keys keeps their rounds the same. -/
theorem SameRounds.setIfInBounds {j k : Key} (h : SameRounds j k) (n : Nat) (d : Byte) :
    SameRounds (j.setIfInBounds n d) (k.setIfInBounds n d) := by
  intro i
  rw [readKey_setIfInBounds, readKey_setIfInBounds]
  split
  · rfl
  · exact h i

/-- Under a key with the same rounds `PROCESS` does the same to every other register. -/
theorem substitute_of_sameRounds (b : Byte) {s : State} {k : Key} (h : SameRounds k s.key) :
    ({ s with key := k } : State).substitute b = { s.substitute b with key := k } := by
  have round : applyRound (readKey k s.cursor) s.tables = applyRound (readKey s.key s.cursor) s.tables :=
    applyRound_congr (h s.cursor) s.tables
  have tables : ({ s with key := k } : State).tables = s.tables := rfl
  simp only [State.substitute, State.currentKeyByte, tables, round]

/-- From a state with another key of the same rounds every effect is the same but for the key, and the keys it leaves
have the same rounds again. -/
theorem Effect.of_sameRounds {i : Instr} {s t : State} {k : Key} (effect : Effect i s t) (h : SameRounds k s.key) :
    ∃ k', SameRounds k' t.key ∧ Effect i { s with key := k } { t with key := k' } := by
  cases effect with
  | nop => exact ⟨k, h, .nop⟩
  | clear => exact ⟨zeroKey, .refl _, .clear⟩
  | append d idle => exact ⟨_, h.setIfInBounds s.keyCount.toNat d, .append d idle⟩
  | start m loaded => exact ⟨k, h, .start m loaded⟩
  | process b streaming => exact ⟨k, h, substitute_of_sameRounds b h ▸ .process b streaming⟩
  | finish streaming => exact ⟨zeroKey, .refl _, .finish streaming⟩
  | peekFwd x => exact ⟨k, h, .peekFwd x⟩
  | peekInv x => exact ⟨k, h, .peekInv x⟩
  | discard discarded => exact ⟨k, h, .discard discarded⟩
  | fail e fails => exact ⟨zeroKey, .refl _, .fail e fails⟩

/-- Runs from states that differ in keys with the same rounds give the same output and differ in the key only. -/
theorem runCommands_of_sameRounds (is : List Instr) {s : State} {k : Key} (h : SameRounds k s.key) :
    ∃ out t k', runCommands is s = some (out, t) ∧
      runCommands is { s with key := k } = some (out, { t with key := k' }) := by
  induction is generalizing s k with
  | nil => exact ⟨[], s, k, rfl, rfl⟩
  | cons i is ih =>
    obtain ⟨t, effect⟩ := exists_effect i s
    obtain ⟨k', h', effect'⟩ := effect.of_sameRounds h
    obtain ⟨out, u, k'', hrun, hrun'⟩ := ih h'
    rw [runCommands_cons_of_next (exec_of_effect effect), runCommands_cons_of_next (exec_of_effect effect'), hrun, hrun']
    exact ⟨_, u, k'', rfl, rfl⟩

/-- Settles O52: exchanging 0, 1 and 2 in a key changes no block size. -/
theorem equivalentKeysGiveEqualOutputs : Obligations.EquivalentKeysGiveEqualOutputs := by
  intro is s k equivalent
  have same : SameRounds k s.key := fun j => by
    rcases equivalent j with heq | ⟨hk, hs⟩
    · rw [heq]
    · rw [blockSize_of_le_two hk, blockSize_of_le_two hs]
  obtain ⟨out, t, k', hrun, hrun'⟩ := runCommands_of_sameRounds is same
  exact ⟨out, t, _, hrun, hrun', rfl⟩

end Sys2Proof.Machine
end

section
/-! PROOFS. Stream control (42_stream_control.md): the words of `NOP`, `CLEAR`, `KEY_BYTE`, `START`, `FINISH` and
`ABORT`, what each does in each stream state, the order of the stream states, and keys of a wrong length. -/

namespace Sys2Proof.Machine

open Sys2Proof.Safety

/-! ## The words of an opcode that are no command (R64, R65) -/

/-- An opcode without operands has one word. -/
theorem raisesIllegal_of_decodePlain {w : CmdWord} {i : Instr} (branch : decode w = decodePlain w i)
    (other : encode i ≠ w) : RaisesIllegal w :=
  raisesIllegal_of_not_decoded fun j hj => by
    obtain ⟨-, -, rfl⟩ := decodePlain_eq_ok.mp (branch ▸ hj)
    exact other (encodeOfDecode w i hj).2

theorem raisesIllegal_of_decodeData {w : CmdWord} {i : Byte → Instr} (branch : decode w = decodeData w i)
    (harg : argField w ≠ 0#4) : RaisesIllegal w :=
  raisesIllegal_of_not_decoded fun _ hj => harg (decodeData_eq_ok.mp (branch ▸ hj)).1

/-- The opcode of `START` has one word for each mode. -/
theorem raisesIllegal_of_decodeStart {w : CmdWord} (branch : decode w = decodeStart w)
    (other : ∀ m, encode (.start m) ≠ w) : RaisesIllegal w :=
  raisesIllegal_of_not_decoded fun j hj => by
    obtain ⟨m, -, -, rfl⟩ := decodeStart_eq_ok.mp (branch ▸ hj)
    exact other m (encodeOfDecode w _ hj).2

theorem raisesIllegal_of_decodeAbort {w : CmdWord} (branch : decode w = decodeAbort w)
    (bad : hostCodeOk (argField w) = true → dataField w ≠ 0#8) : RaisesIllegal w :=
  raisesIllegal_of_not_decoded fun j hj => by
    obtain ⟨hcode, hdata, -⟩ := decodeAbort_eq_ok.mp (branch ▸ hj)
    exact bad hcode hdata

/-! ## Commands that fail or are discarded (R103, R104) -/

theorem exec_failedWith {i : Instr} {s : State} {e : Failure} (fails : disposition i s.fsm = .fails e) :
    ∃ t, exec i s = .next t ∧ FailedWith e s t :=
  ⟨_, exec_of_fails fails, failEntry_failedWith e s⟩

theorem exec_noEffect {i : Instr} {s : State} (discarded : disposition i s.fsm = .discarded) :
    ∃ t, exec i s = .next t ∧ NoEffect s t :=
  ⟨_, exec_of_discarded discarded, noPulse_noEffect s⟩

/-! ## `NOP` and `CLEAR` (R89, R90) -/

theorem encode_nop : encode .nop = 0x0000#16 := by decide

theorem encode_clear : encode .clear = 0x1000#16 := by decide

/-- Settles O4. -/
theorem nopChangesNothing : Obligations.NopChangesNothing := by
  refine ⟨encode_nop, decode_eq_ok_iff.mpr ⟨rfl, encode_nop⟩, fun w hop hne => ?illegal,
    fun s => ⟨_, exec_of_effect .nop, noPulse_noEffect s⟩⟩
  case illegal =>
    have branch : decode w = decodePlain w .nop := by simp [decode, hop]
    exact raisesIllegal_of_decodePlain branch (encode_nop ▸ hne.symm)

/-- Settles O5. -/
theorem clearReturnsToTheResetState : Obligations.ClearReturnsToTheResetState := by
  refine ⟨encode_clear, decode_eq_ok_iff.mpr ⟨rfl, encode_clear⟩, fun w hop hne => ?illegal,
    fun s => ⟨s.cleared, exec_of_effect .clear, ?cleared⟩⟩
  case illegal =>
    have branch : decode w = decodePlain w .clear := by simp [decode, hop]
    exact raisesIllegal_of_decodePlain branch (encode_clear ▸ hne.symm)
  case cleared =>
    exact ⟨keyZero_of_eq rfl, rfl, tablesIdentity_of_eq rfl rfl, rfl, rfl, rfl, rfl, rfl, rfl, rfl, rfl,
      ⟨rfl, rfl, rfl, rfl⟩⟩

/-! ## `KEY_BYTE` (R91) -/

theorem encode_keyByte (d : Byte) : encode (.keyByte d) = 0x2000#16 ||| d.setWidth 16 :=
  packWord_eq_or 2#4 0#4 d

theorem readKey_appendKeyByte (d : Byte) (s : State) (i : BitVec 4) :
    readKey (s.appendKeyByte d).key i = if i.toNat = s.keyCount.toNat then d else readKey s.key i := by
  rw [State.appendKeyByte_key, readKey_setIfInBounds]
  simp only [eq_comm]

/-- `KEY_COUNT` has room for 16, so it does not wrap (R26). -/
theorem toNat_appendKeyByte_keyCount (d : Byte) {s : State} (hlt : s.keyCount.toNat < 16) :
    (s.appendKeyByte d).keyCount.toNat = s.keyCount.toNat + 1 := by
  rw [State.appendKeyByte_keyCount, BitVec.toNat_add]
  exact Nat.mod_eq_of_lt (show s.keyCount.toNat + 1 < 32 by omega)

theorem appendKeyByte_fsm_eq_ite (d : Byte) {s : State} (idle : s.fsm = .idle) (hlt : s.keyCount.toNat < 16) :
    (s.appendKeyByte d).fsm = if s.keyCount.toNat = 15 then .keyLoaded else .idle := by
  have hcount := toNat_appendKeyByte_keyCount d hlt
  rcases appendKeyByte_fsm_cases d idle hlt with ⟨hfsm, hc⟩ | ⟨hfsm, hc⟩
  · rw [hfsm, if_neg (by omega)]
  · rw [hfsm, if_pos (by omega)]

/-- Settles O6, by the stream state. -/
theorem keyByteAppendsOrFails : Obligations.KeyByteAppendsOrFails := by
  refine ⟨fun d => ⟨encode_keyByte d, decode_eq_ok_iff.mpr ⟨rfl, encode_keyByte d⟩⟩,
    fun w hop harg => raisesIllegal_of_decodeData (i := .keyByte) (by simp [decode, hop]) harg,
    fun d s => ⟨fun idle hlt => ?idle, fun loaded => ?loaded, fun later => ?later, fun failed => ?failed⟩⟩
  case idle =>
    exact ⟨s.appendKeyByte d, exec_of_effect (.append d idle), readKey_appendKeyByte d s,
      toNat_appendKeyByte_keyCount d hlt, appendKeyByte_fsm_eq_ite d idle hlt, rfl, rfl, rfl, rfl, rfl, rfl, rfl, rfl,
      rfl, ⟨rfl, rfl, rfl, rfl⟩⟩
  case loaded => exact exec_failedWith (by rw [loaded]; rfl)
  case later => exact exec_failedWith (by rcases later with hf | hf <;> rw [hf] <;> rfl)
  case failed => exact exec_noEffect (by rw [failed]; rfl)

/-! ## `START` (R92) -/

theorem encode_start_encrypt : encode (.start .encrypt) = 0x3000#16 := by decide

theorem encode_start_decrypt : encode (.start .decrypt) = 0x3100#16 := by decide

/-- Settles O7, by the stream state. -/
theorem startOpensAStreamOrFails : Obligations.StartOpensAStreamOrFails := by
  refine ⟨encode_start_encrypt, encode_start_decrypt, decode_eq_ok_iff.mpr ⟨rfl, encode_start_encrypt⟩,
    decode_eq_ok_iff.mpr ⟨rfl, encode_start_decrypt⟩, fun w hop hne hne' => ?illegal,
    fun m s => ⟨fun loaded => ?loaded, fun idle => ?idle, fun later => ?later, fun failed => ?failed⟩⟩
  case illegal =>
    refine raisesIllegal_of_decodeStart (by simp [decode, hop]) fun m => ?_
    cases m with
    | encrypt => exact encode_start_encrypt ▸ hne.symm
    | decrypt => exact encode_start_decrypt ▸ hne'.symm
  case loaded =>
    exact ⟨s.started m, exec_of_effect (.start m loaded), tablesIdentity_of_eq rfl rfl, rfl, rfl, rfl, rfl, rfl, rfl,
      rfl, rfl, rfl, rfl, ⟨rfl, rfl, rfl, rfl⟩⟩
  case idle => exact exec_failedWith (by rw [idle]; rfl)
  case later => exact exec_failedWith (by rcases later with hf | hf <;> rw [hf] <;> rfl)
  case failed => exact exec_noEffect (by rw [failed]; rfl)

/-! ## `FINISH` (R93) -/

theorem encode_finish : encode .finish = 0x5000#16 := by decide

/-- Settles O9, by the stream state. -/
theorem finishClosesTheStreamOrFails : Obligations.FinishClosesTheStreamOrFails := by
  refine ⟨encode_finish, decode_eq_ok_iff.mpr ⟨rfl, encode_finish⟩, fun w hop hne => ?illegal,
    fun s => ⟨fun streaming => ?streaming, fun closed => ?closed, fun failed => ?failed⟩⟩
  case illegal =>
    have branch : decode w = decodePlain w .finish := by simp [decode, hop]
    exact raisesIllegal_of_decodePlain branch (encode_finish ▸ hne.symm)
  case streaming =>
    exact ⟨s.finished, exec_of_effect (.finish streaming), keyZero_of_eq rfl, rfl, tablesIdentity_of_eq rfl rfl, rfl,
      rfl, rfl, rfl, rfl, rfl, rfl, rfl, ⟨rfl, rfl, rfl, rfl⟩⟩
  case closed => exact exec_failedWith (by rcases closed with hf | hf | hf <;> rw [hf] <;> rfl)
  case failed => exact exec_noEffect (by rw [failed]; rfl)

/-! ## `ABORT` (R94, R101) -/

theorem encode_abort (c : BitVec 4) : encode (.abort c) = 0x6000#16 ||| c.setWidth 16 <<< 8 := by
  revert c
  decide

theorem hostCodeOk_iff_toNat {c : BitVec 4} : hostCodeOk c = true ↔ 1 ≤ c.toNat ∧ c.toNat ≤ 5 := decide_eq_true_iff

/-- The code of the error that a host reports is the code it sent. -/
theorem exists_hostFailure {c : BitVec 4} (h : hostCodeOk c = true) :
    ∃ e, hostFailure c = some e ∧ failureCode e = c := by
  have code : ∀ c, hostCodeOk c = true → (hostFailure c).map failureCode = some c := by decide
  exact Option.map_eq_some_iff.mp (code c h)

theorem exec_abort_of_ne_failed {c : BitVec 4} {s : State} {e : Failure} (host : hostFailure c = some e)
    (hne : s.fsm ≠ .failed) : exec (.abort c) s = .next (s.failEntry e) := by
  have fails := execAbort_of_ne_failed c hne
  rw [host] at fails
  exact fails

/-- Settles O10. -/
theorem abortFailsWithTheHostsCode : Obligations.AbortFailsWithTheHostsCode := by
  refine ⟨fun c hlow hhigh => ⟨encode_abort c, ?decodes⟩, fun w hop bad => ?illegal,
    fun c s hlow hhigh => ⟨fun hne => ?fails, fun failed => ?failed⟩⟩
  case decodes => exact decode_eq_ok_iff.mpr ⟨hostCodeOk_iff_toNat.mpr ⟨hlow, hhigh⟩, encode_abort c⟩
  case illegal =>
    refine raisesIllegal_of_decodeAbort (by simp [decode, hop]) fun hcode hdata => ?_
    obtain ⟨hlow, hhigh⟩ := hostCodeOk_iff_toNat.mp hcode
    rcases bad with h | h | h
    · omega
    · omega
    · exact h hdata
  case fails =>
    obtain ⟨e, host, code⟩ := exists_hostFailure (hostCodeOk_iff_toNat.mpr ⟨hlow, hhigh⟩)
    exact ⟨_, e, exec_abort_of_ne_failed host hne, code, failEntry_failedWith e s⟩
  case failed => exact exec_noEffect (by rw [failed]; rfl)

/-! ## The order of the stream states (R96) -/

/-- Settles O46, by what the command did. -/
theorem streamStatesMoveForward : Obligations.StreamStatesMoveForward := by
  intro i s t h
  cases exec_eq_next.mp h with
  | nop | peekFwd | peekInv | process | discard => exact .inl rfl
  | clear => exact .inr (.inl ⟨rfl, rfl⟩)
  | append d idle =>
    rw [State.appendKeyByte_fsm]
    split
    · exact .inr (.inr (.inl ⟨idle, rfl⟩))
    · exact .inl rfl
  | start m loaded => exact .inr (.inr (.inr (.inl ⟨loaded, rfl⟩)))
  | finish streaming => exact .inr (.inr (.inr (.inr (.inl ⟨streaming, rfl⟩))))
  | fail e fails => exact .inr (.inr (.inr (.inr (.inr ⟨ne_failed_of_fails fails, rfl⟩))))

/-! ## Keys of a wrong length (R95) -/

/-- A command that fails gives no output byte, and the run goes on in `FAILED`. -/
theorem runCommands_cons_of_fails {i : Instr} {s : State} {e : Failure} (fails : disposition i s.fsm = .fails e)
    (is : List Instr) : runCommands (i :: is) s = runCommands is (s.failEntry e) :=
  runCommands_append_of_silent (is := [i]) ((runCommands_cons_of_next (exec_of_fails fails) []).trans rfl) is

/-- Key bytes sent after a failure change nothing: they are discarded (R104). -/
theorem runCommands_keyBytes_of_failEntry (ds : List Byte) (e : Failure) (s : State) :
    runCommands (ds.map .keyByte) (s.failEntry e) = some ([], s.failEntry e) := by
  induction ds with
  | nil => rfl
  | cons d ds ih =>
    have hexec : exec (.keyByte d) (s.failEntry e) = .next (s.failEntry e) := rfl
    rw [List.map_cons, runCommands_cons_of_next hexec, ih]
    rfl

/-- Failure entry overwrites every register that loading a key writes. -/
theorem KeyBytesLoaded.failEntry_eq {s t : State} {ds : List Byte} (h : KeyBytesLoaded s ds t) (e : Failure) :
    t.failEntry e = s.failEntry e := by
  rw [h.frame]
  rfl

/-- A `START` that comes too early fails. -/
theorem runCommands_start_of_shortKey {ks : List Byte} (m : Mode) {s : State} (idle : s.fsm = .idle)
    (empty : s.keyCount = 0#5) (short : ks.length < 16) :
    runCommands (ks.map .keyByte ++ [.start m]) s = some ([], s.failEntry .invalidKeySize) := by
  obtain ⟨t, hrun, loaded⟩ := runCommands_keyBytes idle empty ks short.le
  have fails : disposition (.start m) t.fsm = .fails .invalidKeySize := by rw [loaded.idle short]; rfl
  rw [runCommands_append_of_silent hrun, runCommands_cons_of_fails fails, loaded.failEntry_eq]
  rfl

/-- The 17th key byte fails, and those after it are discarded. -/
theorem runCommands_longKey {ks : List Byte} {s : State} (idle : s.fsm = .idle) (empty : s.keyCount = 0#5)
    (long : 16 < ks.length) : runCommands (ks.map .keyByte) s = some ([], s.failEntry .invalidKeySize) := by
  have hlen : (ks.take 16).length = 16 := List.length_take_of_le long.le
  obtain ⟨t, hrun, loaded⟩ := runCommands_keyBytes idle empty (ks.take 16) hlen.le
  have hfsm : t.fsm = .keyLoaded := by rw [loaded.fsm, if_pos hlen]
  have fails : disposition (.keyByte ks[16]) t.fsm = .fails .invalidKeySize := by rw [hfsm]; rfl
  calc runCommands (ks.map .keyByte) s
    _ = runCommands ((ks.take 16).map .keyByte ++ (ks.drop 16).map .keyByte) s := by
      rw [← List.map_append, List.take_append_drop]
    _ = runCommands ((ks.drop 16).map .keyByte) t := runCommands_append_of_silent hrun _
    _ = runCommands ((ks.drop 17).map .keyByte) (t.failEntry .invalidKeySize) := by
      rw [List.drop_eq_getElem_cons long, List.map_cons, runCommands_cons_of_fails fails]
    _ = some ([], s.failEntry .invalidKeySize) := by
      rw [loaded.failEntry_eq, runCommands_keyBytes_of_failEntry]

/-- Settles O48. -/
theorem wrongKeyLengthFails : Obligations.WrongKeyLengthFails := fun _ m s idle empty =>
  ⟨fun short => ⟨_, runCommands_start_of_shortKey m idle empty short, failEntry_failedWith .invalidKeySize s⟩,
    fun long => ⟨_, runCommands_longKey idle empty long, failEntry_failedWith .invalidKeySize s⟩⟩

end Sys2Proof.Machine
end

section
/-! PROOFS. Substitution lookup (43_state_lookup.md): the words of `PEEK_FWD` and `PEEK_INV`, and the entries that they
answer with. -/

namespace Sys2Proof.Machine

open Sys2Proof.Safety

theorem encode_peekFwd (i : Byte) : encode (.peekFwd i) = 0x7000#16 ||| i.setWidth 16 :=
  packWord_eq_or 7#4 0#4 i

theorem encode_peekInv (i : Byte) : encode (.peekInv i) = 0x8000#16 ||| i.setWidth 16 :=
  packWord_eq_or 8#4 0#4 i

/-- A result goes to `DOUT` with `DOUT_VALID` set; every other register keeps its value (R32). -/
theorem output_registersKept (r : Byte) (s : State) :
    RegistersKept { s with dout := r, doutValid := true } (s.output r) :=
  ⟨rfl, rfl, rfl, rfl, rfl, rfl, rfl, rfl, rfl, rfl, rfl⟩

theorem output_sideKept (r : Byte) (s : State) : SideKept s (s.output r) := ⟨rfl, rfl, rfl, rfl⟩

/-- A command whose whole effect is a result, with its frame (R97, R98). -/
theorem exec_answers {i : Instr} {s : State} {r : Byte} (effect : Effect i s (s.output r)) :
    ∃ t, exec i s = .next t ∧ t.dout = r ∧ t.doutValid = true ∧ t.rspValid = true ∧
      RegistersKept { s with dout := t.dout, doutValid := t.doutValid } t ∧ SideKept s t :=
  ⟨s.output r, exec_of_effect effect, s.output_dout r, s.output_doutValid r, s.output_rspValid r,
    output_registersKept r s, output_sideKept r s⟩

/-- Settles O11. Outside `STREAMING` the invariant has the forward table at the identity (R23). -/
theorem peekFwdReadsTheForwardTable : Obligations.PeekFwdReadsTheForwardTable := by
  refine ⟨fun i => ⟨encode_peekFwd i, decode_eq_ok_iff.mpr ⟨rfl, encode_peekFwd i⟩⟩,
    fun w hop harg => raisesIllegal_of_decodeData (i := .peekFwd) (by simp [decode, hop]) harg,
    fun i s => exec_answers (.peekFwd i), fun i s inv notStreaming => ?atRest⟩
  case atRest =>
    obtain ⟨identity, -⟩ := inv.atRest notStreaming
    have entry : readEntry s.fwd i = i := (identity i).1
    exact ⟨_, exec_of_effect (.peekFwd i), entry⟩

/-- Settles O12. `PEEK_FWD` keeps the inverse table, so `PEEK_INV` of its result is the left inverse of R22. -/
theorem peekInvReadsTheInverseTable : Obligations.PeekInvReadsTheInverseTable := by
  refine ⟨fun i => ⟨encode_peekInv i, decode_eq_ok_iff.mpr ⟨rfl, encode_peekInv i⟩⟩,
    fun w hop harg => raisesIllegal_of_decodeData (i := .peekInv) (by simp [decode, hop]) harg,
    fun i s => exec_answers (.peekInv i), fun i s inverse => ?roundTrip⟩
  case roundTrip =>
    have undone : readEntry s.inv (readEntry s.fwd i) = i := (inverse i).1
    exact ⟨_, _, exec_of_effect (.peekFwd i), exec_of_effect (.peekInv _), undone⟩

end Sys2Proof.Machine
end

section
/-! PROOFS. Errors (60_exceptions.md): the state table, the way into `FAILED` and the way out of it. -/

namespace Sys2Proof.Machine

open Sys2Proof.Safety

/-! ## The state table (R102) -/

/-- A command that runs by its own rule neither enters `FAILED` nor, but for `CLEAR`, leaves it. -/
theorem Effect.fsm_eq_failed_iff_of_runs {i : Instr} {s t : State} (effect : Effect i s t)
    (runs : disposition i s.fsm = .runs) : t.fsm = .failed ↔ s.fsm = .failed ∧ i ≠ .clear := by
  cases effect with
  | nop | clear | peekFwd x | peekInv x => simp
  | append d idle => exact iff_of_false (appendKeyByte_fsm_ne_failed d idle) (by simp [idle])
  | start m loaded => simp [loaded]
  | process b streaming => simp [streaming]
  | finish streaming => simp [streaming]
  | discard discarded => rw [discarded] at runs; cases runs
  | fail e fails => rw [fails] at runs; cases runs

/-- Settles O14, by the cell of the table. -/
theorem stateTableHolds : Obligations.StateTableHolds := by
  intro i s _
  cases hd : disposition i s.fsm with
  | runs =>
    obtain ⟨t, effect⟩ := exists_effect i s
    exact ⟨t, exec_of_effect effect, effect.fsm_eq_failed_iff_of_runs hd⟩
  | fails e => exact exec_failedWith hd
  | discarded => exact exec_noEffect hd

/-! ## The way into `FAILED` (R103) -/

/-- A command enters `FAILED` only where the table gives it an error. -/
theorem eq_failEntry_of_enters_failed {i : Instr} {s t : State} (h : exec i s = .next t) (hs : s.fsm ≠ .failed)
    (ht : t.fsm = .failed) : ∃ e, t = s.failEntry e := by
  have effect := exec_eq_next.mp h
  cases hd : disposition i s.fsm with
  | runs => exact absurd ((effect.fsm_eq_failed_iff_of_runs hd).mp ht).1 hs
  | fails e => exact ⟨e, by simpa [h] using exec_of_fails hd⟩
  | discarded => exact absurd (failed_of_discarded hd) hs

/-- Settles O15: a word is a command or `Illegal`, and outside `FAILED` an `Illegal` word always fails. -/
theorem failureEntryIsTheOnlyWayToFail : Obligations.FailureEntryIsTheOnlyWayToFail := by
  intro w s t h hs ht
  suffices ∃ e, t = s.failEntry e by
    obtain ⟨e, rfl⟩ := this
    exact ⟨e, failEntry_failedWith e s⟩
  rcases runWord_cases w s with ⟨i, -, hrun⟩ | ⟨-, -, hrun⟩
  · exact eq_failEntry_of_enters_failed (hrun.symm.trans h) hs ht
  · rcases takeIllegal_cases s with ⟨hf, -⟩ | ⟨-, hfail⟩
    · exact absurd hf hs
    · exact ⟨.illegalCommand, by simpa [h] using hrun.trans hfail⟩

/-! ## In `FAILED` (R104) -/

/-- The column of `FAILED` in the table of R102. -/
theorem disposition_failed_eq_discarded {i : Instr} (hnop : i ≠ .nop) (hclear : i ≠ .clear)
    (hfwd : ∀ x, i ≠ .peekFwd x) (hinv : ∀ x, i ≠ .peekInv x) : disposition i .failed = .discarded := by
  cases i with
  | keyByte | start | process | finish | abort => rfl
  | nop => exact absurd rfl hnop
  | clear => exact absurd rfl hclear
  | peekFwd x => exact absurd rfl (hfwd x)
  | peekInv x => exact absurd rfl (hinv x)

theorem latencyClassOf_nop {w : CmdWord} (h : decode w = .ok .nop) (f : Fsm) : latencyClassOf w f = .misc := by
  simp [latencyClassOf, h, disposition, ownLatencyClass]

theorem latencyClassOf_of_discarded {w : CmdWord} {i : Instr} {f : Fsm} (h : decode w = .ok i)
    (discarded : disposition i f = .discarded) : latencyClassOf w f = .misc := by
  simp [latencyClassOf, h, discarded]

theorem latencyClassOf_illegal_failed {w : CmdWord} {e : DecodeError} (h : decode w = .error e) :
    latencyClassOf w .failed = .misc := by
  simp [latencyClassOf, h]

/-- A word in `FAILED` that is neither `CLEAR` nor `PEEK_*` changes nothing and is as busy as a `NOP`: it is a `NOP`, a
discarded command or an `Illegal` word. -/
theorem runWord_noEffect_of_failed {w : CmdWord} {s : State} (failed : s.fsm = .failed)
    (hclear : decode w ≠ .ok .clear) (hfwd : ∀ i, decode w ≠ .ok (.peekFwd i))
    (hinv : ∀ i, decode w ≠ .ok (.peekInv i)) :
    latencyClassOf w s.fsm = .misc ∧ ∃ t, runWord w s = .next t ∧ NoEffect s t := by
  cases hw : decode w with
  | error e =>
    have illegal : RaisesIllegal w := raisesIllegal_of_not_decoded fun i hi => by simp [hw] at hi
    exact ⟨failed ▸ latencyClassOf_illegal_failed hw, (illegal s).2 failed⟩
  | ok i =>
    rw [runWord_of_decode_ok hw]
    by_cases hnop : i = .nop
    · subst hnop
      exact ⟨latencyClassOf_nop hw _, _, exec_of_effect .nop, noPulse_noEffect s⟩
    · have discarded : disposition i s.fsm = .discarded := failed ▸ disposition_failed_eq_discarded hnop
        (fun hi => hclear (hi ▸ hw)) (fun x hi => hfwd x (hi ▸ hw)) (fun x hi => hinv x (hi ▸ hw))
      exact ⟨latencyClassOf_of_discarded hw discarded, exec_noEffect discarded⟩

/-- A word whose command only answers a result (R97, R98). -/
theorem runWord_answers {w : CmdWord} {i : Instr} {s : State} {r : Byte} (hw : decode w = .ok i)
    (effect : Effect i s (s.output r)) :
    ∃ t, runWord w s = .next t ∧ t.dout = r ∧ t.rspValid = true ∧
      RegistersKept { s with dout := t.dout, doutValid := true } t :=
  ⟨s.output r, (runWord_of_decode_ok hw s).trans (exec_of_effect effect), s.output_dout r, s.output_rspValid r,
    output_registersKept r s⟩

/-- Settles O16, by what the word decodes to. -/
theorem failedIsLeftByClearOnly : Obligations.FailedIsLeftByClearOnly := by
  refine fun w s failed => ⟨fun hclear => ?clear, fun i hfwd => runWord_answers hfwd (.peekFwd i),
    fun i hinv => runWord_answers hinv (.peekInv i), runWord_noEffect_of_failed failed⟩
  case clear =>
    have hrun := runWord_of_decode_ok hclear s
    exact ⟨hrun, s.cleared, hrun.trans (exec_of_effect .clear), rfl, rfl⟩

end Sys2Proof.Machine
end

section
/-! PROOFS. Reset and the handshake (70_reset_and_hazards.md): a busy period from its first edge to its last, and what it
leaves when it ends. -/

namespace Sys2Proof.Machine

open Sys2Proof.Safety

/-! ## Commands before the first reset (R119) -/

theorem clockEdge_of_valid_uninitialised {p : Pins} {s : State} (hi : s.initialised = false) (low : p.rst = false)
    (offer : p.valid = true) : clockEdge p s = .refused .commandBeforeReset := by
  simp [clockEdge, hi, low, offer]

theorem transact_of_uninitialised (w : CmdWord) {s : State} (hi : s.initialised = false) :
    transact w s = .refused .commandBeforeReset := by
  simp [transact, hi]

theorem step_offering (e : HostEvent) (s : State) : step (s.offering e) = takeEvent e s := rfl

/-- Settles O3: neither check looks at what is under way. -/
theorem commandBeforeResetIsRefused : Obligations.CommandBeforeResetIsRefused := fun s w hi =>
  ⟨(step_offering (.command w) s).trans (transact_of_uninitialised w hi),
    (step_offering (.edge ⟨false, true, w⟩) s).trans (clockEdge_of_valid_uninitialised hi rfl rfl)⟩

/-! ## One edge of a busy period (R122, R124) -/

/-- An edge that neither resets a block nor is refused there (R118, R119). `initialised` is the block's own. -/
structure Pins.LetsRun (initialised : Bool) (p : Pins) : Prop where
  low : p.rst = false
  accepted : p.valid = true → initialised = true

/-- While busy, whether and what the host offers does not count. -/
theorem clockEdge_of_busy {p : Pins} {s : State} {f : Flight} (run : p.LetsRun s.initialised)
    (busy : s.flight = some f) : clockEdge p s = busyEdge f s := by
  rcases clockEdge_cases p s with ⟨high, -⟩ | ⟨-, offer, hi, -⟩ | ⟨-, -, ⟨g, hg, hc⟩ | ⟨ready, -⟩⟩
  · simp [run.low] at high
  · simp [run.accepted offer] at hi
  · obtain rfl : g = f := by simpa [hg] using busy
    exact hc
  · simp [ready] at busy

/-- Settles O27: both edges are the busy period's own. -/
theorem offerWhileBusyIsNotAccepted : Obligations.OfferWhileBusyIsNotAccepted := by
  intro s p q hi hb hp hq
  obtain ⟨f, busy⟩ := Option.isSome_iff_exists.mp hb
  rw [outputs_of_busy hi hb]
  exact ⟨(clockEdge_of_busy ⟨hp, fun _ => hi⟩ busy).trans (clockEdge_of_busy ⟨hq, fun _ => hi⟩ busy).symm, rfl, rfl⟩

/-! ## A busy period from its first edge to its last (R117, R123) -/

/-- The state `n` free values after `s`, busy with a job for `left` more edges. A busy period is in such a state from its
first edge to its last: `acceptWord_eq_busyWith`, `resetEdge_eq_busyWith` and `runEdges_busyWith`. -/
def State.busyWith (job : Job) (left n : Nat) (s : State) : State :=
  { s with flight := some ⟨job, left⟩, rspValid := false, draws := s.draws + n }

theorem acceptWord_eq_busyWith (w : CmdWord) (s : State) :
    acceptWord w s = s.busyWith (.command w) (latencyOf (latencyClassOf w s.fsm) s.draws) 1 := rfl

theorem resetEdge_eq_busyWith (s : State) : resetEdge s = s.busyWith .resetInit Config.latReset 1 := rfl

theorem busyWith_busy (job : Job) (left n : Nat) (s : State) : (s.busyWith job left n).busy = true := rfl

theorem busyWith_registersKept (job : Job) (left n : Nat) (s : State) : RegistersKept s (s.busyWith job left n) :=
  ⟨rfl, rfl, rfl, rfl, rfl, rfl, rfl, rfl, rfl, rfl, rfl⟩

section
variable {s : State} {p : Pins} {ps : List Pins} {job : Job} {left n : Nat}

/-- An edge that is not the last leaves one edge fewer. -/
theorem clockEdge_busyWith (run : p.LetsRun s.initialised) (hleft : 1 < left) :
    clockEdge p (s.busyWith job left n) = .next (s.busyWith job (left - 1) (n + 1)) := by
  have hc : clockEdge p (s.busyWith job left n) = busyEdge ⟨job, left⟩ (s.busyWith job left n) :=
    clockEdge_of_busy run rfl
  rcases busyEdge_cases ⟨job, left⟩ (s.busyWith job left n) with ⟨hlast, -⟩ | ⟨-, hb⟩
  · exact absurd hlast (Nat.not_le.mpr hleft)
  · exact hc.trans hb

/-- The last edge completes the job. -/
theorem clockEdge_busyWith_last (run : p.LetsRun s.initialised) :
    clockEdge p (s.busyWith job 1 n) = completeFlight ⟨job, 1⟩ (s.busyWith job 1 (n + 1)) := by
  have hc : clockEdge p (s.busyWith job 1 n) = busyEdge ⟨job, 1⟩ (s.busyWith job 1 n) := clockEdge_of_busy run rfl
  rcases busyEdge_cases ⟨job, 1⟩ (s.busyWith job 1 n) with ⟨-, hb⟩ | ⟨hmore, -⟩
  · exact hc.trans hb
  · exact absurd hmore (Nat.lt_irrefl 1)

theorem runEdges_cons_of_next {t : State} (h : clockEdge p s = .next t) : runEdges (p :: ps) s = runEdges ps t := by
  simp [runEdges, h]

theorem runEdges_singleton (p : Pins) (s : State) : runEdges [p] s = clockEdge p s := by
  cases h : clockEdge p s <;> simp [runEdges, andThen, h]

/-- Fewer edges than are left only count down. -/
theorem runEdges_busyWith (run : ∀ q ∈ ps, q.LetsRun s.initialised) (hlen : ps.length < left) :
    runEdges ps (s.busyWith job left n) = .next (s.busyWith job (left - ps.length) (n + ps.length)) := by
  induction ps generalizing left n with
  | nil => rfl
  | cons q qs ih =>
    obtain ⟨hq, hqs⟩ := List.forall_mem_cons.mp run
    simp only [List.length_cons] at hlen ⊢
    rw [runEdges_cons_of_next (clockEdge_busyWith hq (by omega)), ih hqs (by omega), Nat.sub_right_comm, Nat.sub_sub,
      Nat.add_assoc, Nat.add_comm 1]

/-- As many edges as are left complete the job. -/
theorem runEdges_busyWith_complete (run : ∀ q ∈ ps, q.LetsRun s.initialised) (hlen : ps.length = left)
    (hleft : 1 ≤ left) :
    runEdges ps (s.busyWith job left n) = completeFlight ⟨job, 1⟩ (s.busyWith job 1 (n + left)) := by
  induction ps generalizing left n with
  | nil => simp [← hlen] at hleft
  | cons q qs ih =>
    obtain rfl : left = qs.length + 1 := hlen.symm
    obtain ⟨hq, hqs⟩ := List.forall_mem_cons.mp run
    cases qs with
    | nil =>
      rw [runEdges_singleton]
      exact clockEdge_busyWith_last hq
    | cons r rs =>
      have more : 1 < (r :: rs).length + 1 := by simp
      rw [runEdges_cons_of_next (clockEdge_busyWith hq more)]
      exact (ih hqs rfl (by simp)).trans (by rw [Nat.add_right_comm, Nat.add_assoc])

end

/-! ## Reset (R116, R117, R118) -/

theorem clockEdge_of_rst {p : Pins} (high : p.rst = true) (s : State) : clockEdge p s = .next (resetEdge s) := by
  simp [clockEdge, high]

/-- Settles O2: the first edge makes the block busy with the initialisation, the others are the edges of that busy
period. -/
theorem resetEdgesAbandonAndInitialise : Obligations.ResetEdgesAbandonAndInitialise := by
  intro s p ps high low offers
  have run : ∀ q ∈ ps, q.LetsRun s.initialised := fun q hq =>
    ⟨low q hq, fun hv => offers.elim id fun quiet => by simp [quiet q hq] at hv⟩
  rw [runEdges_cons_of_next (clockEdge_of_rst high s), resetEdge_eq_busyWith]
  refine ⟨fun hlen => ⟨_, runEdges_busyWith run hlen, rfl, rfl⟩, fun hlen => ?_⟩
  exact ⟨_, runEdges_busyWith_complete run hlen (Nat.succ_pos _), resetRegisters_registersReset _, rfl, rfl⟩

/-! ## Edges against transactions (R16, R122, R123) -/

/-- No command reads the pulse or the count of free values, and every command writes the pulse. -/
theorem Effect.of_pulse_draws {i : Instr} {s t : State} (effect : Effect i s t) (rspValid : Bool) (draws : Nat) :
    Effect i { s with rspValid := rspValid, draws := draws } { t with draws := draws } := by
  cases effect with
  | nop => exact .nop
  | clear => exact .clear
  | append d idle => exact .append d idle
  | start m loaded => exact .start m loaded
  | process b streaming => exact .process b streaming
  | finish streaming => exact .finish streaming
  | peekFwd x => exact .peekFwd x
  | peekInv x => exact .peekInv x
  | discard discarded => exact .discard discarded
  | fail e fails => exact .fail e fails

/-- An `Illegal` word does what `ABORT` with a code that no host may report does (R65, R94). -/
theorem takeIllegal_eq_exec_abort (s : State) : takeIllegal s = exec (.abort 0#4) s := by
  cases hf : s.fsm <;> simp [exec, execAbort, takeIllegal, hostFailure, hf]

/-- A word does what one command does, in every state: the one it decodes to, or `ABORT` for an `Illegal` word. -/
theorem exists_exec_eq_runWord (w : CmdWord) : ∃ i, ∀ s, runWord w s = exec i s := by
  by_cases hw : ∃ i, decode w = .ok i
  · obtain ⟨i, hi⟩ := hw
    exact ⟨i, runWord_of_decode_ok hi⟩
  · exact ⟨.abort 0#4, fun s => (runWord_of_not_decoded (not_exists.mp hw) s).trans (takeIllegal_eq_exec_abort s)⟩

theorem runWord_of_pulse_draws {w : CmdWord} {s t : State} (h : runWord w s = .next t) (rspValid : Bool)
    (draws : Nat) :
    runWord w { s with rspValid := rspValid, draws := draws } = .next { t with draws := draws } := by
  obtain ⟨i, runs⟩ := exists_exec_eq_runWord w
  rw [runs] at h ⊢
  exact exec_of_effect ((exec_eq_next.mp h).of_pulse_draws rspValid draws)

/-- At the end of its busy period a word runs on the registers of its acceptance. -/
theorem completeFlight_busyWith_command (w : CmdWord) (left m n : Nat) {s : State} (ready : s.flight = none) :
    completeFlight ⟨.command w, left⟩ (s.busyWith (.command w) m n) =
      runWord w { s with rspValid := false, draws := s.draws + n } := by
  change runWord w { s with flight := none, rspValid := false, draws := s.draws + n } = _
  rw [← ready]

/-- A ready block accepts the word that is offered (R122). -/
theorem clockEdge_accepts (w : CmdWord) {s : State} (ready : s.flight = none) (hi : s.initialised = true) :
    clockEdge ⟨false, true, w⟩ s = .next (acceptWord w s) := by
  simp [clockEdge, readyEdge, ready, hi]

/-- Settles O26: the first edge makes the block busy with the word for the latency drawn, and the last edge of that busy
period runs the word, as its transaction does. -/
theorem handshakeRefinesTheTransaction : Obligations.HandshakeRefinesTheTransaction := by
  intro s w ready hi
  obtain ⟨hpos, hbound⟩ := latencyOf_bounds (latencyClassOf w s.fsm) s.draws
  refine ⟨_, hpos, hbound, fun ps low => ?_⟩
  have run : ∀ q ∈ ps, q.LetsRun s.initialised := fun q hq => ⟨low q hq, fun _ => hi⟩
  rw [runEdges_cons_of_next (clockEdge_accepts w ready hi), acceptWord_eq_busyWith]
  refine ⟨fun hlen => ?busy, fun hlen => ?complete⟩
  case busy =>
    exact ⟨_, runEdges_busyWith run hlen, busyWith_busy .., rfl, busyWith_registersKept .., hi⟩
  case complete =>
    obtain ⟨u, hu, side⟩ := runWord_next_side w s
    have done := runEdges_busyWith_complete (job := .command w) (n := 1) run hlen hpos
    rw [completeFlight_busyWith_command w _ _ _ ready] at done
    exact ⟨_, u, done.trans (runWord_of_pulse_draws hu false _),
      (transact_of_settle hi (settle_of_ready ready)).trans hu, by simp [State.busy, side.flight, ready], rfl⟩

end Sys2Proof.Machine
end
